-- ==== Sys2Proof/Word.lean ====
section
/-! DEFINITION. The three word types of spec/00_scope.md R5 and R6. -/

namespace Sys2Proof

/-- R5: the 32-bit word a port transaction carries, and the width of a control register and of a command word. -/
abbrev Word := BitVec 32

/-- R6: a 256-bit data register value, "always read as an unsigned integer in [0, 2^256)". -/
abbrev Word256 := BitVec 256

/-- R5, R60: the 8-bit word address of a transaction. -/
abbrev WordAddr := BitVec 8

end Sys2Proof
end

