-- ==== Sys2Proof/Syntax.lean ====
section
/-! DEFINITION. The syntax of the engine: the 17 commands, the fields of a command word, the names of the data registers,
and the host-script notation of spec/30_encoding.md R97. -/

namespace Sys2Proof

/-- The 17 legal commands of spec/30_encoding.md R93, one constructor per row of spec/opcode_table.json. No command has an
operand field (R95): the modulus select is part of the row, so it is part of the constructor. -/
inductive Instr where
  | identity
  | add
  | double
  | mulscalar
  | mulgen
  | invertP
  | invertN
  | invertM
  | moduloP
  | moduloN
  | moduloM
  | mulmodP
  | mulmodN
  | mulmodM
  | montmulP
  | montmulN
  | montmulM
deriving DecidableEq, Repr

/-- The three fields of a command word (R90): OP in bits 3:0, MSEL in bits 5:4, ZERO in bits 31:6. -/
structure CommandFields where
  op   : BitVec 4
  msel : BitVec 2
  zero : BitVec 26
deriving DecidableEq, Repr

/-- Why a command word is illegal, in the order in which R99 tests it. The engine reports none of these apart: each one
completes with ERR = ILLEGAL_CMD (spec/60_exceptions.md R184). -/
inductive IllegalReason where
  /-- R90, R94: a bit of 31:6 is set. -/
  | zeroFieldSet
  /-- R94: OP is 0x0 or 0xA to 0xF. -/
  | noSuchOperation
  /-- R91, R94: MSEL is not 0 on one of the five point operations. -/
  | mselOnPointOperation
  /-- R91, R94: MSEL is 3 on one of the four field operations. -/
  | mselReserved
deriving DecidableEq, Repr

/-- The modulus selects of spec/30_encoding.md R91, by the suffix of the command. -/
inductive ModulusSelect where
  /-- `.P`: the field prime, the value of CP. -/
  | p
  /-- `.N`: the group order, the value of CN. -/
  | n
  /-- `.M`: the current value of register M. -/
  | m
deriving DecidableEq, Repr

/-- The 18 data registers of spec/10_state.md R21, `x[1]` to `x[18]` in the order of its table. -/
inductive DataReg where
  | px | py | qx | qy | rx | ry | k | a | b | m | s
  | cp | cn | ca | cb | cgx | cgy | ch
deriving DecidableEq, Repr

/-- A line of a host script (spec/30_encoding.md R97): a transaction, or a pseudo-instruction that expands to transactions. -/
inductive HostLine where
  /-- `WR w, v`. -/
  | wr (w : WordAddr) (v : Word)
  /-- `RD w`. -/
  | rd (w : WordAddr)
  /-- `CMD mnemonic`. -/
  | cmd (i : Instr)
  /-- `WAIT`. -/
  | wait
  /-- `WR256 reg, v`. -/
  | wr256 (reg : DataReg) (v : Word256)
  /-- `RD256 reg`. -/
  | rd256 (reg : DataReg)
  /-- `SETINF pinf, qinf`. -/
  | setinf (pinf qinf : Bool)
  /-- `MOV256 dst, src`. -/
  | mov256 (dst src : DataReg)
  /-- `MOVPT P, R`. -/
  | movpt
  /-- `ACK`. -/
  | ack
  /-- `IRQEN e`. -/
  | irqen (e : Word)
deriving DecidableEq, Repr

/-- What the host does in one turn: at most one port transaction (spec/20_memory.md R60), or one look at `irq`. -/
inductive HostOp where
  /-- A write transaction with a value the script gives. -/
  | write (w : WordAddr) (v : Word)
  /-- A read transaction; the value is recorded. -/
  | read (w : WordAddr)
  /-- The last read of `RD256 reg`, of word 7; after the word, the sum of the eight words read is recorded. -/
  | readLast (reg : DataReg)
  /-- One poll of `WAIT`: a read of STATUS, kept as the next operation while the value read has BUSY = 1; the last value read
  is recorded as the script's status. -/
  | poll
  /-- One look at the output `irq` (spec/20_memory.md R69, R72), kept as the next operation while `irq` is 0. -/
  | awaitIrq
  /-- A write transaction whose value is word `j` of the register value recorded last (the writes of `MOV256`). -/
  | writeRecorded (w : WordAddr) (j : Nat)
  /-- The write of PTFLAGS that ends `MOVPT P, R`: bit 0 is bit 2 of the value read last, bit 1 is its bit 1. -/
  | writePointFlags
deriving DecidableEq, Repr

end Sys2Proof
end

