-- ==== Sys2Proof/Machine/State.lean ====
section
/-! DEFINITION. The state of the model as plain data, and its value after reset. The engine's part is all of
spec/10_state.md R20; the host's part and the schedule stand for the other agents (INVENTORY.md, log 1, log 3). -/

namespace Sys2Proof.Machine

/-- R40: the engine's phase, visible only as STATUS.BUSY. -/
inductive Phase where
  | idle
  | busy
deriving DecidableEq, Repr

/-- spec/60_exceptions.md R181: the error codes of STATUS.ERR; the values 3 to 15 "never produced" have no name. -/
inductive ErrCode where
  /-- Code 0: the last command committed its result. -/
  | none
  /-- Code 1, R183. -/
  | arithFail
  /-- Code 2, R184. -/
  | illegalCmd
deriving DecidableEq, Repr

/-- spec/00_scope.md R8: a point, in the tagged form. -/
inductive Point where
  | infinity
  | affine (x y : Int)
deriving DecidableEq, Repr

/-- What the evaluation of a command comes to (spec/10_state.md R43): a point, a scalar, or an error code. -/
inductive Result where
  | pt (v : Point)
  | sc (v : Int)
  | err (code : ErrCode)
deriving DecidableEq, Repr

/-- The engine's whole architectural state (R20). Reserved bits read 0 and ignore writes, so they are not stored (log 10);
BUSY is a view of `phase` (R34); the constants of R31 are not state. -/
structure Engine where
  /-- PHASE (R40). -/
  phase : Phase
  /-- CMD (R33): the last stored command word. -/
  cmd : Word
  /-- STATUS.DONE (R34). -/
  done : Bool
  /-- STATUS.ERR (R34). -/
  err : ErrCode
  /-- CTRL.IE (R35). -/
  ie : Bool
  /-- PTFLAGS.PINF (R36). -/
  pinf : Bool
  /-- PTFLAGS.QINF (R36). -/
  qinf : Bool
  /-- PTFLAGS.RINF (R36). -/
  rinf : Bool
  /-- x[1] (R21). -/
  px : Word256
  /-- x[2] (R21). -/
  py : Word256
  /-- x[3] (R21). -/
  qx : Word256
  /-- x[4] (R21). -/
  qy : Word256
  /-- x[5] (R21, R23). -/
  rx : Word256
  /-- x[6] (R21, R23). -/
  ry : Word256
  /-- x[7], the scalar (R24). -/
  k : Word256
  /-- x[8], the first field operand (R24). -/
  a : Word256
  /-- x[9], the second field operand (R24). -/
  b : Word256
  /-- x[10], the modulus operand (R24). -/
  m : Word256
  /-- x[11], the field result (R24). -/
  s : Word256
deriving DecidableEq, Repr

/-- What a host script records (spec/30_encoding.md R97). -/
inductive HostRecord where
  /-- `RD w`: "the script records the returned value". -/
  | word (w : WordAddr) (v : Word)
  /-- `RD256 reg`: "the script records `Σ value_j · 2^(32j)`". -/
  | value (reg : DataReg) (v : Word256)
  /-- `WAIT`: "the last returned value is the script's \"status\"". -/
  | status (v : Word)
deriving DecidableEq, Repr

/-- The host agent: what it has still to do, and what its script recorded, newest first (spec/30_encoding.md R97; log 3). -/
structure HostAgent where
  script   : List HostOp
  recorded : List HostRecord
deriving DecidableEq, Repr

/-- Who moves in a step: the agents of spec/20_memory.md R68 and the reset event of spec/70_reset_and_hazards.md R210. -/
inductive Turn where
  | host
  | engine
  | reset
deriving DecidableEq, Repr

/-- The state of the model: the engine, the host, and the order of the coming turns (log 1). -/
structure State where
  engine   : Engine
  host     : HostAgent
  schedule : List Turn
deriving DecidableEq, Repr

/-- The machine never stops with a fault: "No command hangs", "No command produces an undefined or unpredictable value"
(spec/60_exceptions.md R190). An error of a command is a next state (R187). So there is no constructor (log 18). -/
inductive Fault where
deriving DecidableEq, Repr

/-- Reasons to refuse a command. -/
inductive Refusal where
  /-- A command that has no meaning in the model yet. Raised by no arm of `exec`: every command has its meaning. Safe: a
  refusal proves nothing about the hardware. -/
  | notModelled (mnemonic : String)
deriving DecidableEq, Repr

/-- spec/10_state.md R45: the engine after reset. -/
def Engine.reset : Engine where
  phase := .idle
  cmd   := 0
  done  := false
  err   := .none
  ie    := false
  pinf  := true
  qinf  := true
  rinf  := true
  px := 0
  py := 0
  qx := 0
  qy := 0
  rx := 0
  ry := 0
  k  := 0
  a  := 0
  b  := 0
  m  := 0
  s  := 0

/-- The machine right after reset: the engine as R45 says, a host with nothing to do, and no turn fixed (log 1, log 3). -/
def State.reset : State where
  engine   := Engine.reset
  host     := ⟨[], []⟩
  schedule := []

end Sys2Proof.Machine
end

