-- ==== Sys2Proof/Machine/Arith.lean ====
section
/-! DEFINITION. The pure functions on exact integers (spec/00_scope.md R9): `modulo` and `invert` (spec/42_field_arithmetic.md
R150, R151), `bitlen` and `popcount` (R9). `none` is `raise ArithFail()`. -/

namespace Sys2Proof.Machine

/-- R150: `modulo(a, m)`, by the rule's own steps: the remainder of division rounded toward zero, with m added when it is
negative. It is evaluated for m > 0 only. -/
def modulo (a m : Int) : Int :=
  let r := a.tmod m
  if r < 0 then r + m else r

/-- R152: the loop of the extended Euclidean algorithm, at most `fuel` iterations. It ends with gcd(a, m) and a coefficient t0
with t0·a ≡ gcd(a, m) modulo m. -/
def euclidLoop : Nat → Int → Int → Int → Int → Int × Int
  | 0, r0, _, t0, _ => (r0, t0)
  | fuel + 1, r0, r1, t0, t1 =>
    if r1 = 0 then (r0, t0)
    else
      let q := r0 / r1
      euclidLoop fuel r1 (r0 - q * r1) t1 (t0 - q * t1)

/-- R151, by the reference loop of R152: the inverse of a modulo m in [1, m - 1], where it exists. Every iteration of the loop
makes r1 smaller, so `r1 + 1` iterations are enough (log 8). -/
def invert (a m : Int) : Option Int :=
  if m ≤ 0 then none
  else
    let r1 := modulo a m
    if r1 = 0 then none
    else
      let g := euclidLoop (r1.toNat + 1) m r1 0 1
      if g.1 = 1 then some (modulo g.2 m) else none

/-- R9: the number of bits of k, 0 for k = 0. -/
def bitlen (k : Nat) : Nat := if k = 0 then 0 else k.log2 + 1

/-- The number of 1 bits among the low `n` bits of k. -/
def popcountBelow : Nat → Nat → Nat
  | 0, _ => 0
  | n + 1, k => k % 2 + popcountBelow n (k / 2)

/-- R9: the number of 1 bits of k. -/
def popcount (k : Nat) : Nat := popcountBelow (bitlen k) k

end Sys2Proof.Machine
end

