-- ==== Sys2Proof/WellFormed.lean ====
section
/-! DEFINITION. Well-formedness: of the fields of a command word (spec/30_encoding.md R90, R91, R92, R94) and of a line of a
host script (R97). A term of `Instr` carries no operand, so none is ill-formed; what can be ill-formed is the command word a
host writes. -/

namespace Sys2Proof

/-- R90: ZERO, bits 31:6, "must be 0". -/
def CommandFields.zeroOk (f : CommandFields) : Bool := f.zero == 0

/-- R92: OP is one of the five point operations, 0x1 to 0x5. -/
def CommandFields.isPointOp (f : CommandFields) : Bool := 1 ≤ f.op.toNat && f.op.toNat ≤ 5

/-- R92: OP is one of the four field operations, 0x6 to 0x9. -/
def CommandFields.isFieldOp (f : CommandFields) : Bool := 6 ≤ f.op.toNat && f.op.toNat ≤ 9

/-- R92: "OP values 0x0 and 0xA to 0xF are not operations". -/
def CommandFields.opOk (f : CommandFields) : Bool := f.isPointOp || f.isFieldOp

/-- R91: MSEL must be 0 for a point operation, and is not 3 for a field operation. -/
def CommandFields.mselOk (f : CommandFields) : Bool :=
  if f.isPointOp then f.msel == 0 else f.msel != 3

/-- The fields of a legal command word: all three checks hold. -/
def CommandFields.wellFormed (f : CommandFields) : Bool := f.zeroOk && f.opOk && f.mselOk

/-- R97: the registers `WR256` may name, and the destinations of `MOV256`. -/
def DataReg.scriptWritable : DataReg → Bool
  | .px | .py | .qx | .qy | .k | .a | .b | .m => true
  | .rx | .ry | .s | .cp | .cn | .ca | .cb | .cgx | .cgy | .ch => false

/-- R97: `WR256` names one of PX, PY, QX, QY, K, A, B, M, and the destination of `MOV256` is writable. -/
def HostLine.wellFormed : HostLine → Bool
  | .wr256 reg _ => reg.scriptWritable
  | .mov256 dst _ => dst.scriptWritable
  | .wr _ _ | .rd _ | .cmd _ | .wait | .rd256 _ | .setinf _ _ | .movpt | .ack | .irqen _ => true

end Sys2Proof
end

