-- ==== Sys2Proof/Decode.lean ====
section
/-! DEFINITION. Decoding of a command word (spec/30_encoding.md R90, R93, R99), total on all 2^32 words and rejecting by name,
and after it the encoder. -/

namespace Sys2Proof

/-- R90: the fields of a command word. -/
def fieldsOfWord (c : Word) : CommandFields where
  op   := c.extractLsb' 0 4
  msel := c.extractLsb' 4 2
  zero := c.extractLsb' 6 26

/-- R91: MSEL chooses among the three commands of a field operation; 3 is illegal. -/
def bySelect (msel : BitVec 2) (ofP ofN ofM : Instr) : Except IllegalReason Instr :=
  match msel.toNat with
  | 0 => .ok ofP
  | 1 => .ok ofN
  | 2 => .ok ofM
  | _ => .error .mselReserved

/-- R91: a point operation takes MSEL = 0 only. -/
def pointOnly (msel : BitVec 2) (i : Instr) : Except IllegalReason Instr :=
  if msel = 0 then .ok i else .error .mselOnPointOperation

/-- R99: the decoder, in the rule's order: ZERO first, then OP, then MSEL. -/
def decode (c : Word) : Except IllegalReason Instr :=
  let f := fieldsOfWord c
  if f.zero ≠ 0 then .error .zeroFieldSet
  else match f.op.toNat with
    | 0x1 => pointOnly f.msel .identity
    | 0x2 => pointOnly f.msel .add
    | 0x3 => pointOnly f.msel .double
    | 0x4 => pointOnly f.msel .mulscalar
    | 0x5 => pointOnly f.msel .mulgen
    | 0x6 => bySelect f.msel .invertP .invertN .invertM
    | 0x7 => bySelect f.msel .moduloP .moduloN .moduloM
    | 0x8 => bySelect f.msel .mulmodP .mulmodN .mulmodM
    | 0x9 => bySelect f.msel .montmulP .montmulN .montmulM
    | _   => .error .noSuchOperation

/-- R92, R93: OP and MSEL of each command. -/
def fieldsOfInstr : Instr → CommandFields
  | .identity  => ⟨0x1, 0, 0⟩
  | .add       => ⟨0x2, 0, 0⟩
  | .double    => ⟨0x3, 0, 0⟩
  | .mulscalar => ⟨0x4, 0, 0⟩
  | .mulgen    => ⟨0x5, 0, 0⟩
  | .invertP   => ⟨0x6, 0, 0⟩
  | .invertN   => ⟨0x6, 1, 0⟩
  | .invertM   => ⟨0x6, 2, 0⟩
  | .moduloP   => ⟨0x7, 0, 0⟩
  | .moduloN   => ⟨0x7, 1, 0⟩
  | .moduloM   => ⟨0x7, 2, 0⟩
  | .mulmodP   => ⟨0x8, 0, 0⟩
  | .mulmodN   => ⟨0x8, 1, 0⟩
  | .mulmodM   => ⟨0x8, 2, 0⟩
  | .montmulP  => ⟨0x9, 0, 0⟩
  | .montmulN  => ⟨0x9, 1, 0⟩
  | .montmulM  => ⟨0x9, 2, 0⟩

/-- R90: the command word with the given fields, ZERO in the high bits. -/
def packFields (f : CommandFields) : Word := f.zero ++ f.msel ++ f.op

/-- R93: the command word of each command. -/
def encode (i : Instr) : Word := packFields (fieldsOfInstr i)

/-- The command the decoder reads from the low 32 bits of the `nbits`-bit number `w`, if it reads one. A command word is a
number with no bytes (spec/20_memory.md R65), so there is nothing to lay out. -/
def decodeTableWord (nbits w : Nat) : Option Instr :=
  match decode (BitVec.ofNat 32 (w % 2 ^ nbits)) with
  | .ok i => some i
  | .error _ => none

end Sys2Proof
end

