-- ==== Sys2Proof/Machine/Flags.lean ====
section
/-! DEFINITION. The control registers as the words the port shows (spec/20_memory.md R62) and the output `irq`
(spec/10_state.md R37). The engine has no carry, zero, sign or overflow flag (R37). -/

namespace Sys2Proof.Machine

/-- spec/60_exceptions.md R181: the value of STATUS.ERR for each code. -/
def errBits : ErrCode → BitVec 4
  | .none => 0
  | .arithFail => 1
  | .illegalCmd => 2

/-- R34: STATUS.BUSY is "1 exactly when PHASE = BUSY". -/
def busy (e : Engine) : Bool := e.phase == .busy

/-- R34, R62: STATUS, `ERR[3:0] ‖ 0b00 ‖ DONE ‖ BUSY`, the reserved bits 0. -/
def statusWord (e : Engine) : Word :=
  0#24 ++ errBits e.err ++ 0#2 ++ BitVec.ofBool e.done ++ BitVec.ofBool (busy e)

/-- R35, R62: CTRL, IE in bit 0. -/
def ctrlWord (e : Engine) : Word := 0#31 ++ BitVec.ofBool e.ie

/-- R36, R62: PTFLAGS, `RINF ‖ QINF ‖ PINF`. -/
def ptflagsWord (e : Engine) : Word :=
  0#29 ++ BitVec.ofBool e.rinf ++ BitVec.ofBool e.qinf ++ BitVec.ofBool e.pinf

/-- R37: `irq = CTRL.IE AND STATUS.DONE` at every moment. -/
def irq (e : Engine) : Bool := e.ie && e.done

end Sys2Proof.Machine
end

