-- ==== Sys2Proof/Config.lean ====
section
/-! DEFINITION. The interface parameters of spec/00_scope.md R5. The spec leaves two parameters open, LATENCY and
BYTE_ORDER, "which no rule depends on": LATENCY is the order of turns in `State.schedule` (log 1), BYTE_ORDER is outside
the block (log 12). So the model has no opaque constant: no value of the engine is left open (R45, R190). -/

namespace Sys2Proof.Config

/-- R5, R61: the words of one 256-bit data register, each moved by a transaction of its own. -/
abbrev wordsPerRegister : Nat := 8

/-- R5, R46: the word addresses of the one address space, 0x00 to 0xFF. -/
abbrev wordAddresses : Nat := 256

/-- R5, R21: the data registers, eleven for operands and results and seven constants. -/
abbrev dataRegisters : Nat := 18

end Sys2Proof.Config
end

