-- ==== Sys2Proof/Machine/Curve.lean ====
section
/-! DEFINITION. The seven constants of spec/10_state.md R31, the secp256k1 domain parameters (log 5). -/

namespace Sys2Proof.Machine

/-- CP, the field prime. -/
def curveP : Word256 := 0xFFFFFFFFFFFFFFFFFFFFFFFFFFFFFFFFFFFFFFFFFFFFFFFFFFFFFFFEFFFFFC2F

/-- CN, the group order. -/
def curveN : Word256 := 0xFFFFFFFFFFFFFFFFFFFFFFFFFFFFFFFEBAAEDCE6AF48A03BBFD25E8CD0364141

/-- CA, the Weierstrass coefficient a; no operation reads it (spec/40_point_group_law.md R113, spec/90_conflicts.md C3). -/
def curveA : Word256 := 0

/-- CB, the Weierstrass coefficient b; no operation reads it. -/
def curveB : Word256 := 7

/-- CGX, the x coordinate of the generator. -/
def curveGX : Word256 := 0x79BE667EF9DCBBAC55A06295CE870B07029BFCDB2DCE28D959F2815B16F81798

/-- CGY, the y coordinate of the generator. -/
def curveGY : Word256 := 0x483ADA7726A3C4655DA4FBFC0E1108A8FD17B448A68554199C47D08FFB10D4B8

/-- CH, the cofactor; no operation reads it. -/
def curveH : Word256 := 1

/-- The field prime as the integer the formulas use (spec/00_scope.md R11). -/
def primeP : Int := curveP.toNat

/-- The group order as an integer. -/
def orderN : Int := curveN.toNat

/-- spec/00_scope.md R8: `G`, "Affine(CGX, CGY), the generator". -/
def generator : Point := .affine curveGX.toNat curveGY.toNat

end Sys2Proof.Machine
end

