-- ==== Sys2Proof/Machine/Registers.lean ====
section
/-! DEFINITION. The data registers by name and number (spec/10_state.md R21), and the 32-bit words of a 256-bit value
(spec/00_scope.md R6, spec/20_memory.md R64). The one place that reads or writes a data register by name. -/

namespace Sys2Proof.Machine

/-- R21: the number i of the register x[i]. -/
def regNumber : DataReg → Nat
  | .px => 1
  | .py => 2
  | .qx => 3
  | .qy => 4
  | .rx => 5
  | .ry => 6
  | .k => 7
  | .a => 8
  | .b => 9
  | .m => 10
  | .s => 11
  | .cp => 12
  | .cn => 13
  | .ca => 14
  | .cb => 15
  | .cgx => 16
  | .cgy => 17
  | .ch => 18

/-- R21: the register x[i]; "There is no x[0]", and none above x[18]. -/
def regOfNumber : Nat → Option DataReg
  | 1 => some .px
  | 2 => some .py
  | 3 => some .qx
  | 4 => some .qy
  | 5 => some .rx
  | 6 => some .ry
  | 7 => some .k
  | 8 => some .a
  | 9 => some .b
  | 10 => some .m
  | 11 => some .s
  | 12 => some .cp
  | 13 => some .cn
  | 14 => some .ca
  | 15 => some .cb
  | 16 => some .cgx
  | 17 => some .cgy
  | 18 => some .ch
  | _ => none

/-- The value of a data register; the constants always read the values of R31. -/
def readReg (r : DataReg) (e : Engine) : Word256 :=
  match r with
  | .px => e.px
  | .py => e.py
  | .qx => e.qx
  | .qy => e.qy
  | .rx => e.rx
  | .ry => e.ry
  | .k => e.k
  | .a => e.a
  | .b => e.b
  | .m => e.m
  | .s => e.s
  | .cp => curveP
  | .cn => curveN
  | .ca => curveA
  | .cb => curveB
  | .cgx => curveGX
  | .cgy => curveGY
  | .ch => curveH

/-- The write of a data register; a constant is "never mutated" (R31). -/
def setReg (r : DataReg) (v : Word256) (e : Engine) : Engine :=
  match r with
  | .px => { e with px := v }
  | .py => { e with py := v }
  | .qx => { e with qx := v }
  | .qy => { e with qy := v }
  | .rx => { e with rx := v }
  | .ry => { e with ry := v }
  | .k => { e with k := v }
  | .a => { e with a := v }
  | .b => { e with b := v }
  | .m => { e with m := v }
  | .s => { e with s := v }
  | .cp | .cn | .ca | .cb | .cgx | .cgy | .ch => e

/-- R21, spec/20_memory.md R63: the registers the host may write; RX, RY, S and the constants ignore a write. -/
def hostWritable : DataReg → Bool
  | .px | .py | .qx | .qy | .k | .a | .b | .m => true
  | .rx | .ry | .s | .cp | .cn | .ca | .cb | .cgx | .cgy | .ch => false

/-- R6: word j of a register value, `v[32j+31:32j]`. -/
def getWord (v : Word256) (j : Nat) : Word := v.extractLsb' (32 * j) 32

/-- spec/20_memory.md R63: the value with word j replaced; "the other 224 bits keep their values". -/
def setWord (v : Word256) (j : Nat) (w : Word) : Word256 :=
  (v &&& ~~~((0xFFFFFFFF : Word256) <<< (32 * j))) ||| ((w.setWidth 256) <<< (32 * j))

/-- spec/20_memory.md R64: the word address of word j of a register, `8·i + j`. -/
def wordAddr (r : DataReg) (j : Nat) : WordAddr :=
  BitVec.ofNat 8 (Config.wordsPerRegister * regNumber r + j)

/-- spec/20_memory.md R62, R66: the register a word address lies in, if any. -/
def regOfAddr (w : WordAddr) : Option DataReg := regOfNumber (w.toNat / Config.wordsPerRegister)

/-- spec/20_memory.md R62: which word of its register a word address is. -/
def wordIndex (w : WordAddr) : Nat := w.toNat % Config.wordsPerRegister

end Sys2Proof.Machine
end

