-- ==== Sys2Proof/Machine/Operands.lean ====
section
/-! DEFINITION. The operands of the commands, all implicit (spec/30_encoding.md R95): points read through their flags, the
scalar, the field operands and the modulus. -/

namespace Sys2Proof.Machine

/-- spec/00_scope.md R8: a point register read through its flag; with the flag set the coordinates are not read (R22). -/
def pointOf (inf : Bool) (x y : Word256) : Point :=
  if inf then .infinity else .affine x.toNat y.toNat

/-- R8: `PtP`. -/
def ptP (e : Engine) : Point := pointOf e.pinf e.px e.py

/-- R8: `PtQ`. -/
def ptQ (e : Engine) : Point := pointOf e.qinf e.qx e.qy

/-- R8: `PtR`. -/
def ptR (e : Engine) : Point := pointOf e.rinf e.rx e.ry

/-- R95: the scalar, "K, all 256 bits, unsigned". -/
def scalarK (e : Engine) : Nat := e.k.toNat

/-- R95: the first field operand, all 256 bits, unsigned. -/
def operandA (e : Engine) : Int := e.a.toNat

/-- R95: the second field operand. -/
def operandB (e : Engine) : Int := e.b.toNat

/-- R91, R95: `modulus(msel)`: CP, CN or M. -/
def modulus (sel : ModulusSelect) (e : Engine) : Int :=
  match sel with
  | .p => curveP.toNat
  | .n => curveN.toNat
  | .m => e.m.toNat

end Sys2Proof.Machine
end

