-- ==== Sys2Proof/Machine/Ops.lean ====
section
/-! DEFINITION. The shared operations on the engine: the start step (spec/10_state.md R42), the commit of a result (R23, R43),
the error completion (spec/60_exceptions.md R187), the completion step, and the reset event. Nothing is saved by an error and
there is nothing to return from (R187, R188), so the error completion has no counterpart. -/

namespace Sys2Proof.Machine

/-- R42: the start step for the command word v: `CMD <- v; STATUS.DONE <- 0; STATUS.ERR <- 0; PHASE <- BUSY`. -/
def startStep (v : Word) (e : Engine) : Engine :=
  { e with cmd := v, done := false, err := .none, phase := .busy }

/-- R43: what every completion step does besides the result: `STATUS.ERR <- code; STATUS.DONE <- 1; PHASE <- IDLE`. -/
def endCommand (code : ErrCode) (e : Engine) : Engine :=
  { e with err := code, done := true, phase := .idle }

/-- spec/00_scope.md R8: `R <- pt`. The coordinates of a committed point are in [0, 2^256) (R23), so the conversion to 256 bits
loses nothing (log 21). -/
def commitPoint (v : Point) (e : Engine) : Engine :=
  match v with
  | .infinity => { e with rinf := true, rx := 0, ry := 0 }
  | .affine x y => { e with rinf := false, rx := BitVec.ofInt 256 x, ry := BitVec.ofInt 256 y }

/-- R43: `S <- v`. -/
def commitScalar (v : Int) (e : Engine) : Engine := { e with s := BitVec.ofInt 256 v }

/-- spec/60_exceptions.md R187: an error completion: the code, DONE, IDLE; no result register changes. -/
def errorCompletion (code : ErrCode) (e : Engine) : Engine := endCommand code e

/-- R43: the completion step for an outcome already evaluated. -/
def complete (r : Result) (e : Engine) : Engine :=
  match r with
  | .pt v => endCommand .none (commitPoint v e)
  | .sc v => endCommand .none (commitScalar v e)
  | .err code => errorCompletion code e

/-- R43: a point operation's outcome; `none` is a `raise ArithFail()` met in the evaluation. -/
def pointResult : Option Point → Result
  | some v => .pt v
  | none => .err .arithFail

/-- R43: a field operation's outcome. -/
def scalarResult : Option Int → Result
  | some v => .sc v
  | none => .err .arithFail

/-- The end of every command's meaning: the completion step on the engine, the other agents untouched. -/
def finish (r : Result) (s : State) : Host.Outcome State Fault Refusal :=
  .next { s with engine := complete r s.engine }

/-- What the engine finds when it is its turn: nothing in flight, a legal command, or an illegal command word. -/
inductive Fetched where
  | noCommand
  | legal (i : Instr)
  | illegal (why : IllegalReason)
deriving DecidableEq, Repr

/-- R43, spec/30_encoding.md R99: the completion step is enabled exactly when PHASE = BUSY, and "Decoding is done at the
completion step on the stored CMD". -/
def fetchCommand (e : Engine) : Fetched :=
  match e.phase with
  | .idle => .noCommand
  | .busy =>
    match decode e.cmd with
    | .ok i => .legal i
    | .error why => .illegal why

/-- spec/30_encoding.md R94, spec/60_exceptions.md R184: the completion of an illegal command word. -/
def completeIllegal (s : State) : State :=
  { s with engine := errorCompletion .illegalCmd s.engine }

/-- spec/70_reset_and_hazards.md R210, R211: the reset event puts the engine in its reset state, whatever it was doing. The
host is not part of the engine and keeps its script and records (log 3). -/
def resetEngine (s : State) : State := { s with engine := Engine.reset }

end Sys2Proof.Machine
end

