-- ==== Sys2Proof/Machine/Field.lean ====
section
/-! DEFINITION. Field arithmetic: INVERT, MODULO, MULMOD, MONTMUL, each modulo p, n or M (spec/42_field_arithmetic.md). -/

namespace Sys2Proof.Machine

/-- R155: MODULO refuses a zero modulus by ARITH_FAIL. -/
def moduloChecked (a m : Int) : Option Int := if m = 0 then none else some (modulo a m)

/-- R156: the exact product, reduced; a zero modulus is ARITH_FAIL. -/
def mulmod (a b m : Int) : Option Int := if m = 0 then none else some (modulo (a * b) m)

/-- R157, spec/00_scope.md R5: the Montgomery radix, 2^256. -/
def montgomeryRadix : Int := 2 ^ 256

/-- R157: `A·B·R⁻¹ mod m`, fully reduced, for any A and B. -/
def montmul (a b m : Int) : Option Int :=
  (invert montgomeryRadix m).map fun rinv => modulo (a * b * rinv) m

/-- R158, informative: the standard reduction without a division by m, which gives the value of R157 for odd m ≥ 3 and
A, B < m. No command evaluates it. -/
def montgomeryReduce (a b m : Int) : Option Int :=
  (invert m montgomeryRadix).map fun minv =>
    let m' := modulo (-minv) montgomeryRadix
    let t := a * b
    let u := modulo (modulo t montgomeryRadix * m') montgomeryRadix
    let v := (t + u * m) / montgomeryRadix
    if m ≤ v then v - m else v

/-- R154: `S <- invert(A, m)`. -/
def evalInvert (sel : ModulusSelect) (e : Engine) : Result :=
  scalarResult (invert (operandA e) (modulus sel e))

/-- R155: `S <- modulo(A, m)`. -/
def evalModulo (sel : ModulusSelect) (e : Engine) : Result :=
  scalarResult (moduloChecked (operandA e) (modulus sel e))

/-- R156: `S <- modulo(A·B, m)`. -/
def evalMulmod (sel : ModulusSelect) (e : Engine) : Result :=
  scalarResult (mulmod (operandA e) (operandB e) (modulus sel e))

/-- R157: `S <- modulo(A·B·rinv, m)`. -/
def evalMontmul (sel : ModulusSelect) (e : Engine) : Result :=
  scalarResult (montmul (operandA e) (operandB e) (modulus sel e))

/-- INVERT.P (R154). -/
def execInvertP (s : State) : Host.Outcome State Fault Refusal := finish (evalInvert .p s.engine) s

/-- INVERT.N (R154). -/
def execInvertN (s : State) : Host.Outcome State Fault Refusal := finish (evalInvert .n s.engine) s

/-- INVERT.M (R154). -/
def execInvertM (s : State) : Host.Outcome State Fault Refusal := finish (evalInvert .m s.engine) s

/-- MODULO.P (R155). -/
def execModuloP (s : State) : Host.Outcome State Fault Refusal := finish (evalModulo .p s.engine) s

/-- MODULO.N (R155). -/
def execModuloN (s : State) : Host.Outcome State Fault Refusal := finish (evalModulo .n s.engine) s

/-- MODULO.M (R155). -/
def execModuloM (s : State) : Host.Outcome State Fault Refusal := finish (evalModulo .m s.engine) s

/-- MULMOD.P (R156). -/
def execMulmodP (s : State) : Host.Outcome State Fault Refusal := finish (evalMulmod .p s.engine) s

/-- MULMOD.N (R156). -/
def execMulmodN (s : State) : Host.Outcome State Fault Refusal := finish (evalMulmod .n s.engine) s

/-- MULMOD.M (R156). -/
def execMulmodM (s : State) : Host.Outcome State Fault Refusal := finish (evalMulmod .m s.engine) s

/-- MONTMUL.P (R157). -/
def execMontmulP (s : State) : Host.Outcome State Fault Refusal := finish (evalMontmul .p s.engine) s

/-- MONTMUL.N (R157). -/
def execMontmulN (s : State) : Host.Outcome State Fault Refusal := finish (evalMontmul .n s.engine) s

/-- MONTMUL.M (R157). -/
def execMontmulM (s : State) : Host.Outcome State Fault Refusal := finish (evalMontmul .m s.engine) s

end Sys2Proof.Machine
end

