-- ==== Sys2Proof/Machine/PointGroup.lean ====
section
/-! DEFINITION. The point group law: IDENTITY, ADD, DOUBLE (spec/40_point_group_law.md). -/

namespace Sys2Proof.Machine

/-- The x3, y3 formulas shared by the chord (R112 step 4) and the tangent (R113, with x2 = x1). -/
def thirdPoint (lam x1 y1 x2 : Int) : Point :=
  let x3 := modulo (lam * lam - x1 - x2) primeP
  let y3 := modulo (lam * (x1 - x3) - y1) primeP
  .affine x3 y3

/-- R113: `double(P1)`, with step 0 for the identity. -/
def double : Point → Option Point
  | .infinity => some .infinity
  | .affine x1 y1 =>
    (invert (2 * y1) primeP).map fun inv =>
      thirdPoint (modulo (3 * x1 * x1 * inv) primeP) x1 y1 x1

/-- R112: `add(P1, P2)`, the four steps in their order. The tests of steps 2 and 3 compare the values as they stand. -/
def add : Point → Point → Option Point
  | .infinity, p2 => some p2
  | .affine x1 y1, .infinity => some (.affine x1 y1)
  | .affine x1 y1, .affine x2 y2 =>
    if x1 = x2 ∧ y1 = y2 then double (.affine x1 y1)
    else if x1 = x2 ∧ modulo (y1 + y2) primeP = 0 then some .infinity
    else
      (invert (x2 - x1) primeP).map fun inv =>
        thirdPoint (modulo ((y2 - y1) * inv) primeP) x1 y1 x2

/-- spec/00_scope.md glossary: an affine point is on the curve when its coordinates are in [0, p) and satisfy the equation;
the identity counts as on the curve. -/
def onCurve : Point → Bool
  | .infinity => true
  | .affine x y =>
    decide (0 ≤ x ∧ x < primeP ∧ 0 ≤ y ∧ y < primeP ∧
      modulo (y * y - x * x * x - curveA.toNat * x - curveB.toNat) primeP = 0)

/-- IDENTITY (R111): R <- Infinity; no register is read. -/
def execIdentity (s : State) : Host.Outcome State Fault Refusal := finish (.pt .infinity) s

/-- ADD (R112): R <- add(PtP, PtQ). -/
def execAdd (s : State) : Host.Outcome State Fault Refusal :=
  finish (pointResult (add (ptP s.engine) (ptQ s.engine))) s

/-- DOUBLE (R113): R <- double(PtP); Q is not read. -/
def execDouble (s : State) : Host.Outcome State Fault Refusal :=
  finish (pointResult (double (ptP s.engine))) s

end Sys2Proof.Machine
end

