-- ==== Sys2Proof/Machine/ScalarMul.lean ====
section
/-! DEFINITION. Scalar multiplication: the iteration sequencer, MULSCALAR and MULGEN (spec/41_scalar_multiplication.md). -/

namespace Sys2Proof.Machine

/-- The hidden iteration state `(acc, addend, k)` of R130 and spec/10_state.md R44, loaded when the command starts and discarded
when it completes (log 2). -/
structure Sequencer where
  acc    : Point
  addend : Point
  k      : Nat
deriving DecidableEq, Repr

/-- R130: the sequencer as loaded for `mulscalar(P1, k)`. -/
def loadSequencer (p1 : Point) (k : Nat) : Sequencer := ⟨.infinity, p1, k⟩

/-- R130: one iteration, in the rule's order: accumulate when bit 0 is 1, then double the addend (the last iteration
included, R137), then shift. -/
def iterate (q : Sequencer) : Option Sequencer :=
  (if q.k % 2 = 1 then add q.acc q.addend else some q.acc).bind fun acc =>
    (double q.addend).map fun addend => ⟨acc, addend, q.k / 2⟩

/-- R130: `while k != 0`, at most `fuel` iterations. -/
def runSequencer : Nat → Sequencer → Option Sequencer
  | 0, q => some q
  | fuel + 1, q => if q.k = 0 then some q else (iterate q).bind (runSequencer fuel)

/-- R130: `mulscalar(P1, k)`. The loop makes `bitlen(k)` iterations (R133), so that much fuel is enough (log 9). -/
def mulscalar (p1 : Point) (k : Nat) : Option Point :=
  (runSequencer (bitlen k) (loadSequencer p1 k)).map Sequencer.acc

/-- R133, spec/70_reset_and_hazards.md R227: what a run of the sequencer does, as counts; no rule's result depends on them. -/
structure OpCounts where
  iterations : Nat
  doubles    : Nat
  adds       : Nat
deriving DecidableEq, Repr

/-- R133: the counts of a run that starts from q and does not fail, at most `fuel` iterations. -/
def countRun : Nat → Sequencer → Option OpCounts
  | 0, _ => some ⟨0, 0, 0⟩
  | fuel + 1, q =>
    if q.k = 0 then some ⟨0, 0, 0⟩
    else (iterate q).bind fun q' =>
      (countRun fuel q').map fun c => ⟨c.iterations + 1, c.doubles + 1, c.adds + q.k % 2⟩

/-- R133: the counts of `mulscalar(P1, k)`, where it does not fail. The loop ends by its own test, `k = 0`: the bound here is
`k` itself, well above the number of iterations. -/
def mulscalarCounts (p1 : Point) (k : Nat) : Option OpCounts := countRun k (loadSequencer p1 k)

/-- MULSCALAR (R131): R <- mulscalar(PtP, K). -/
def execMulscalar (s : State) : Host.Outcome State Fault Refusal :=
  finish (pointResult (mulscalar (ptP s.engine) (scalarK s.engine))) s

/-- MULGEN (R132): R <- mulscalar(Affine(CGX, CGY), K); P is not read. -/
def execMulgen (s : State) : Host.Outcome State Fault Refusal :=
  finish (pointResult (mulscalar generator (scalarK s.engine))) s

end Sys2Proof.Machine
end

