-- ==== Sys2Proof/Machine/Dispatch.lean ====
section
/-! DEFINITION. The meaning of every command: one arm per constructor of `Instr`, each one direct call. `exec i` is the body of
the completion step (spec/10_state.md R43) once the stored word has decoded to i; `step` takes it only while PHASE = BUSY. -/

namespace Sys2Proof.Machine

def exec (i : Instr) (s : State) : Host.Outcome State Fault Refusal :=
  match i with
  | .identity => Sys2Proof.Machine.execIdentity s
  | .add => Sys2Proof.Machine.execAdd s
  | .double => Sys2Proof.Machine.execDouble s
  | .mulscalar => Sys2Proof.Machine.execMulscalar s
  | .mulgen => Sys2Proof.Machine.execMulgen s
  | .invertP => Sys2Proof.Machine.execInvertP s
  | .invertN => Sys2Proof.Machine.execInvertN s
  | .invertM => Sys2Proof.Machine.execInvertM s
  | .moduloP => Sys2Proof.Machine.execModuloP s
  | .moduloN => Sys2Proof.Machine.execModuloN s
  | .moduloM => Sys2Proof.Machine.execModuloM s
  | .mulmodP => Sys2Proof.Machine.execMulmodP s
  | .mulmodN => Sys2Proof.Machine.execMulmodN s
  | .mulmodM => Sys2Proof.Machine.execMulmodM s
  | .montmulP => Sys2Proof.Machine.execMontmulP s
  | .montmulN => Sys2Proof.Machine.execMontmulN s
  | .montmulM => Sys2Proof.Machine.execMontmulM s

end Sys2Proof.Machine
end

