-- ==== Sys2Proof/Machine/Port.lean ====
section
/-! DEFINITION. The one port of the engine: the read transaction and the write transaction (spec/20_memory.md R62, R63). -/

namespace Sys2Proof.Machine

/-- R62: `MemRead(w, 4)`, in either phase; it changes no state. -/
def memRead (w : WordAddr) (e : Engine) : Word :=
  if w = 0x00 then e.cmd
  else if w = 0x01 then statusWord e
  else if w = 0x02 then ctrlWord e
  else if w = 0x03 then ptflagsWord e
  else match regOfAddr w with
    | some r => getWord (readReg r e) (wordIndex w)
    | none => 0

/-- R34: the write of STATUS clears DONE when bit 1 of the written word is 1, and does nothing else. -/
def writeStatus (v : Word) (e : Engine) : Engine :=
  if v.getLsbD 1 then { e with done := false } else e

/-- R35: the write of CTRL sets IE from bit 0. -/
def writeCtrl (v : Word) (e : Engine) : Engine := { e with ie := v.getLsbD 0 }

/-- R36: the write of PTFLAGS sets PINF and QINF from bits 0 and 1; RINF is not writable. -/
def writePtflags (v : Word) (e : Engine) : Engine :=
  { e with pinf := v.getLsbD 0, qinf := v.getLsbD 1 }

/-- R63: the write of one word of a data register; ignored where the register is read only. -/
def writeDataWord (r : DataReg) (j : Nat) (v : Word) (e : Engine) : Engine :=
  if hostWritable r then setReg r (setWord (readReg r e) j v) e else e

/-- R63: `MemWrite(w, 4, v)`; while BUSY it has no effect, "every address, every value". -/
def memWrite (w : WordAddr) (v : Word) (e : Engine) : Engine :=
  match e.phase with
  | .busy => e
  | .idle =>
    if w = 0x00 then startStep v e
    else if w = 0x01 then writeStatus v e
    else if w = 0x02 then writeCtrl v e
    else if w = 0x03 then writePtflags v e
    else match regOfAddr w with
      | some r => writeDataWord r (wordIndex w) v e
      | none => e

end Sys2Proof.Machine
end

