-- ==== Sys2Proof/Machine/HostAgent.lean ====
section
/-! DEFINITION. The host: the expansion of a script line into host operations (spec/30_encoding.md R97), one turn of the host,
and the choice of the agent that moves next (spec/20_memory.md R68, spec/70_reset_and_hazards.md R226). -/

namespace Sys2Proof.Machine

/-- R97 `WR256 reg, v`: "WR base(reg)+j, v[32j+31:32j] for j = 0, 1, ..., 7 in that order". -/
def writeWords (reg : DataReg) (v : Word256) : List HostOp :=
  (List.range Config.wordsPerRegister).map fun j => .write (wordAddr reg j) (getWord v j)

/-- R97 `RD256 reg`: "RD base(reg)+j for j = 0..7; the script records `Σ value_j · 2^(32j)`", after the last of them. -/
def readWords (reg : DataReg) : List HostOp :=
  (List.range (Config.wordsPerRegister - 1)).map (fun j => .read (wordAddr reg j)) ++ [.readLast reg]

/-- R97 `MOV256 dst, src`: "`RD256 src` then `WR256 dst,` the value read". -/
def moveWords (dst src : DataReg) : List HostOp :=
  readWords src ++
    (List.range Config.wordsPerRegister).map fun j =>
      .writeRecorded (wordAddr dst j) j

/-- R97: the word `SETINF pinf, qinf` writes, `qinf·2 + pinf`. -/
def infWord (pinf qinf : Bool) : Word := 0#30 ++ BitVec.ofBool qinf ++ BitVec.ofBool pinf

/-- R97: the host operations a script line stands for. -/
def expandLine : HostLine → List HostOp
  | .wr w v => [.write w v]
  | .rd w => [.read w]
  | .cmd i => [.write 0x00 (encode i)]
  | .wait => [.poll]
  | .wr256 reg v => writeWords reg v
  | .rd256 reg => readWords reg
  | .setinf pinf qinf => [.write 0x03 (infWord pinf qinf)]
  | .mov256 dst src => moveWords dst src
  | .movpt => moveWords .px .rx ++ moveWords .py .ry ++ [.read 0x03, .writePointFlags]
  | .ack => [.write 0x01 0x00000002]
  | .irqen e => [.write 0x02 e]

/-- A host that is given a script to perform (log 4). -/
def loadScript (lines : List HostLine) (s : State) : State :=
  { s with host := { s.host with script := lines.flatMap expandLine } }

/-- A read transaction by the host: the value is recorded, the engine is as it was (R62). -/
def hostRead (w : WordAddr) (rest : List HostOp) (s : State) : State :=
  { s with host := ⟨rest, .word w (memRead w s.engine) :: s.host.recorded⟩ }

/-- The script records something more about what its reads returned. -/
def hostRecord (r : HostRecord) (s : State) : State :=
  { s with host := { s.host with recorded := r :: s.host.recorded } }

/-- The word a record holds; a record of a register value holds none, and follows the words it was made of. -/
def HostRecord.wordOf : HostRecord → Word
  | .word _ v => v
  | .status v => v
  | .value _ _ => 0

/-- R97: `Σ value_j · 2^(32j)`, of words given from j = 0 up. -/
def sumOfWords : List Word → Nat
  | [] => 0
  | v :: rest => v.toNat + 2 ^ 32 * sumOfWords rest

/-- R97: the value of a register whose eight words, from j = 0 up, are the eight newest records; newest is j = 7. -/
def valueRead (recorded : List HostRecord) : Word256 :=
  BitVec.ofNat 256 (sumOfWords ((recorded.take Config.wordsPerRegister).reverse.map HostRecord.wordOf))

/-- R97: the last read of `RD256 reg`: word 7, and then the record of the sum. -/
def hostReadLast (reg : DataReg) (rest : List HostOp) (s : State) : State :=
  let read := hostRead (wordAddr reg (Config.wordsPerRegister - 1)) rest s
  hostRecord (.value reg (valueRead read.host.recorded)) read

/-- R97: one poll of `WAIT`: while the value read has BUSY = 1 the poll is repeated; the last value is the script's status. -/
def hostPoll (rest : List HostOp) (s : State) : State :=
  let status := memRead 0x01 s.engine
  if status.getLsbD 0 then hostRead 0x01 (.poll :: rest) s
  else hostRecord (.status status) (hostRead 0x01 rest s)

/-- A write transaction by the host (R63). -/
def hostWrite (w : WordAddr) (v : Word) (rest : List HostOp) (s : State) : State :=
  { s with engine := memWrite w v s.engine, host := { s.host with script := rest } }

/-- The host goes on without a transaction. -/
def hostSkip (rest : List HostOp) (s : State) : State :=
  { s with host := { s.host with script := rest } }

/-- R97 `MOVPT P, R`: the word written to PTFLAGS, from the word v read there: bit 0 is RINF (bit 2 of v), bit 1 is kept. -/
def pointFlagsWord (v : Word) : Word := infWord (v.getLsbD 2) (v.getLsbD 1)

/-- One turn of the host: at most one transaction, or one look at `irq`. With an empty script it does nothing. -/
def hostTurn (s : State) : State :=
  match s.host.script with
  | [] => s
  | .write w v :: rest => hostWrite w v rest s
  | .read w :: rest => hostRead w rest s
  | .readLast reg :: rest => hostReadLast reg rest s
  | .poll :: rest => hostPoll rest s
  | .awaitIrq :: rest => if irq s.engine then hostSkip rest s else s
  | .writeRecorded w j :: rest =>
    match s.host.recorded with
    | .value _ v :: _ => hostWrite w (getWord v j) rest s
    | _ => hostSkip rest s
  | .writePointFlags :: rest =>
    match s.host.recorded with
    | .word _ v :: _ => hostWrite 0x03 (pointFlagsWord v) rest s
    | _ => hostSkip rest s

/-- Who moves next: the schedule says; where it says nothing more, a command in flight completes (weak fairness, R226) and
otherwise the host moves (log 1). -/
def nextTurn (s : State) : Turn :=
  match s.schedule with
  | t :: _ => t
  | [] => if busy s.engine then .engine else .host

/-- The turn is taken off the schedule. -/
def takeTurn (s : State) : State := { s with schedule := s.schedule.tail }

end Sys2Proof.Machine
end

