-- ==== Sys2Proof/Machine/Step.lean ====
section
/-! DEFINITION. One step of the machine: one turn of one agent (spec/20_memory.md R68). -/

namespace Sys2Proof.Machine

/-- The engine's turn: the completion step while BUSY (spec/10_state.md R43); "when IDLE it simply waits"
(spec/60_exceptions.md R196). -/
def engineTurn (s : State) : Host.Outcome State Fault Refusal :=
  match fetchCommand s.engine with
  | .noCommand => .next s
  | .legal i => exec i s
  | .illegal _ => .next (completeIllegal s)

/-- One step: the agent whose turn it is moves. -/
def step (s : State) : Host.Outcome State Fault Refusal :=
  match nextTurn s with
  | .host => .next (hostTurn (takeTurn s))
  | .engine => engineTurn (takeTurn s)
  | .reset => .next (resetEngine (takeTurn s))

/-- The state in which the very next step runs the command word w: the start step of w (spec/10_state.md R42) has happened and
the engine moves next, because the schedule says nothing and the engine is BUSY (log 4). -/
def State.withFetchWord (s : State) (nbits w : Nat) : State :=
  { s with engine := startStep (BitVec.ofNat 32 (w % 2 ^ nbits)) s.engine, schedule := [] }

end Sys2Proof.Machine
end

