-- ==== Sys2Proof/Machine/CurveFacts.lean ====
section
/-! DEFINITION. The invariants of the constants (spec/10_state.md R32), as properties of the values of R31. The constants are
fixed, so no step can break them: "A construction-time invariant violation (malformed constant) cannot occur in the
hardware". -/

namespace Sys2Proof.Machine

/-- R32: "The invariants the source states of the constants": p and n are prime, the generator satisfies the curve equation, and
b ≠ 0. -/
def curveInvariants : Prop :=
  curveP.toNat.Prime ∧ curveN.toNat.Prime ∧
  ((curveGY.toNat : Int) * curveGY.toNat - curveGX.toNat * curveGX.toNat * curveGX.toNat - curveA.toNat * curveGX.toNat -
    curveB.toNat) % primeP = 0 ∧
  curveB ≠ 0

/-- R32: the facts beyond these that need no arithmetic of the curve: a = 0, h = 1, n odd, n < p < 2^256 and n > 2^255
(general knowledge, log 5). -/
def curveFacts : Prop :=
  curveA = 0 ∧ curveH = 1 ∧ curveN.toNat % 2 = 1 ∧ orderN < primeP ∧ primeP < 2 ^ 256 ∧ 2 ^ 255 < orderN

/-- R32: "no on-curve `Affine` point has y = 0 (the equation x³ + 7 ≡ 0 has no solution modulo p)" (general knowledge, log 5). -/
def noPointOfOrderTwo : Prop :=
  (∀ x : Int, (x * x * x + 7) % primeP ≠ 0) ∧ ∀ x : Int, onCurve (.affine x 0) = false

/-- P has order n: n is the least positive scalar that gives the identity. -/
def hasOrderN (P : Point) : Prop :=
  mulscalar P curveN.toNat = some .infinity ∧ ∀ k : Nat, 0 < k → k < curveN.toNat → mulscalar P k ≠ some .infinity

/-- R32: "every on-curve point other than `Infinity` has order n" (general knowledge, log 5). -/
def curveHasOrderN : Prop := ∀ P : Point, onCurve P = true → P ≠ .infinity → hasOrderN P

end Sys2Proof.Machine
end

