-- ==== Sys2Proof/Safety.lean ====
section
/-! DEFINITION. What the statements call a good engine state, and the observations they speak in. -/

namespace Sys2Proof.Machine

/-- The engine's invariant: "BUSY and DONE are never both 1" (spec/10_state.md R34); while BUSY, ERR is 0, "set by the start
step" (spec/20_memory.md R62); and RINF = 1 means "RX = RY = 0" (R36). -/
abbrev engineInv (e : Engine) : Prop :=
  (e.phase = .busy → e.done = false ∧ e.err = .none) ∧
  (e.rinf = true → e.rx = 0 ∧ e.ry = 0)

/-- The registers no operation writes (spec/10_state.md R26), and with them CMD and IE, which only the host writes. -/
abbrev sameInputs (e e' : Engine) : Prop :=
  e'.cmd = e.cmd ∧ e'.ie = e.ie ∧ e'.pinf = e.pinf ∧ e'.qinf = e.qinf ∧
  e'.px = e.px ∧ e'.py = e.py ∧ e'.qx = e.qx ∧ e'.qy = e.qy ∧
  e'.k = e.k ∧ e'.a = e.a ∧ e'.b = e.b ∧ e'.m = e.m

/-- The result point is unchanged: RINF, RX, RY. -/
abbrev samePoint (e e' : Engine) : Prop := e'.rinf = e.rinf ∧ e'.rx = e.rx ∧ e'.ry = e.ry

/-- R43: the command is over, with the given outcome in STATUS: `STATUS.ERR <- code; STATUS.DONE <- 1; PHASE <- IDLE`. -/
abbrev endedWith (code : ErrCode) (e : Engine) : Prop :=
  e.err = code ∧ e.done = true ∧ e.phase = .idle

/-- The agents other than the engine are untouched. -/
abbrev sameAgents (s t : State) : Prop := t.host = s.host ∧ t.schedule = s.schedule

/-- A point command ended without error and committed the point v; everything else but ERR, DONE and PHASE is as before
(R23, R26, R43). -/
abbrev committedPoint (v : Point) (s t : State) : Prop :=
  ptR t.engine = v ∧ (v = .infinity → t.engine.rx = 0 ∧ t.engine.ry = 0) ∧ endedWith .none t.engine ∧
  sameInputs s.engine t.engine ∧ t.engine.s = s.engine.s ∧ sameAgents s t

/-- A field command ended without error and committed the value v; everything else but ERR, DONE and PHASE is as before. -/
abbrev committedScalar (v : Int) (s t : State) : Prop :=
  (t.engine.s.toNat : Int) = v ∧ endedWith .none t.engine ∧
  sameInputs s.engine t.engine ∧ samePoint s.engine t.engine ∧ sameAgents s t

/-- A command ended with an error: ERR, DONE and PHASE are written and nothing else (spec/60_exceptions.md R187). -/
abbrev endedInError (code : ErrCode) (s t : State) : Prop :=
  endedWith code t.engine ∧ sameInputs s.engine t.engine ∧ samePoint s.engine t.engine ∧
  t.engine.s = s.engine.s ∧ sameAgents s t

/-- spec/10_state.md R45: the table of reset values, entry by entry. -/
abbrev isResetEngine (e : Engine) : Prop :=
  e.phase = .idle ∧ e.cmd = 0 ∧ e.done = false ∧ e.err = .none ∧ e.ie = false ∧
  e.pinf = true ∧ e.qinf = true ∧ e.rinf = true ∧
  e.px = 0 ∧ e.py = 0 ∧ e.qx = 0 ∧ e.qy = 0 ∧ e.rx = 0 ∧ e.ry = 0 ∧
  e.k = 0 ∧ e.a = 0 ∧ e.b = 0 ∧ e.m = 0 ∧ e.s = 0

/-- A command that ends with ERR = ARITH_FAIL. -/
def failsArith (i : Instr) (s : State) : Prop :=
  ∃ t, exec i s = .next t ∧ t.engine.err = .arithFail

/-- spec/41_scalar_multiplication.md R134: the k-fold sum of P, "where the 0-fold sum is `Infinity` and the k-fold sum is
`add(((k−1)-fold sum), P)`". -/
def kFold (P : Point) : Nat → Option Point
  | 0 => some .infinity
  | k + 1 => (kFold P k).bind fun q => add q P

/-- n steps of the machine. -/
def runSteps : Nat → State → Host.Outcome State Fault Refusal
  | 0, s => .next s
  | n + 1, s =>
    match step s with
    | .next t => runSteps n t
    | .fault r => .fault r
    | .refused r => .refused r

/-- The invariant of the whole machine is the engine's. -/
abbrev Inv (s : State) : Prop := engineInv s.engine

end Sys2Proof.Machine
end

