-- ==== Sys2Proof/Certificates/Slice0/Obligations.lean ====
section
/-! DEFINITION. The statements for the provers. Rule numbers are those of spec/. -/

open Sys2Proof Sys2Proof.Machine

/-! ### Encoding -/

/-- R93, R99: the decoder reads a command from a word exactly when the word is that command's encoding. -/
def Obligations.DecodeInvertsEncode : Prop :=
  ∀ (c : Word) (i : Instr), decode c = .ok i ↔ c = encode i

/-- R93: "The 17 legal command words, exactly", each with its command. -/
def Obligations.LegalCommandWordsExactly : Prop :=
  ∀ (c : Word) (i : Instr), decode c = .ok i ↔
    (c, i) ∈ ([(0x00000001, .identity), (0x00000002, .add), (0x00000003, .double), (0x00000004, .mulscalar),
      (0x00000005, .mulgen), (0x00000006, .invertP), (0x00000016, .invertN), (0x00000026, .invertM),
      (0x00000007, .moduloP), (0x00000017, .moduloN), (0x00000027, .moduloM), (0x00000008, .mulmodP),
      (0x00000018, .mulmodN), (0x00000028, .mulmodM), (0x00000009, .montmulP), (0x00000019, .montmulN),
      (0x00000029, .montmulM)] : List (Word × Instr))

/-- R99, R94: the words the decoder accepts and the words it refuses, on the fields as numbers. R99 has the one outcome Illegal:
that an illegal word gets the name of the first test of R99 it fails is the model's choice (log 19). -/
def Obligations.DecodingRule : Prop :=
  ∀ c : Word,
    let high := c.toNat / 64
    let msel := c.toNat / 16 % 4
    let op := c.toNat % 16
    (high ≠ 0 → decode c = .error .zeroFieldSet) ∧
    (high = 0 → op = 0 ∨ 10 ≤ op → decode c = .error .noSuchOperation) ∧
    (high = 0 → 1 ≤ op ∧ op ≤ 5 → msel ≠ 0 → decode c = .error .mselOnPointOperation) ∧
    (high = 0 → 6 ≤ op ∧ op ≤ 9 → msel = 3 → decode c = .error .mselReserved) ∧
    (high = 0 → 1 ≤ op ∧ op ≤ 5 → msel = 0 → ∃ i, decode c = .ok i) ∧
    (high = 0 → 6 ≤ op ∧ op ≤ 9 → msel ≠ 3 → ∃ i, decode c = .ok i)

/-- R93, R94: one word of four families, written out bit by bit, decodes to its command; and the word 0 is illegal (R94), under the
name `noSuchOperation`, which is the model's choice (log 19). -/
def Obligations.SampleCommandWordsDecode : Prop :=
  decode 0b00000000000000000000000000000010#32 = .ok .add ∧
  decode 0b00000000000000000000000000000100#32 = .ok .mulscalar ∧
  decode 0b00000000000000000000000000010110#32 = .ok .invertN ∧
  decode 0b00000000000000000000000000101001#32 = .ok .montmulM ∧
  decode 0b00000000000000000000000000000000#32 = .error .noSuchOperation

/-! ### One step, and the agents -/

/-- R43, R99: when it is the engine's turn and a command is in flight, the step is the meaning of the command the stored word
decodes to, with the turn taken off the schedule. -/
def Obligations.StepRunsTheDecodedCommand : Prop :=
  ∀ (s : State) (i : Instr), nextTurn s = .engine → s.engine.phase = .busy → decode s.engine.cmd = .ok i →
    step s = exec i { s with schedule := s.schedule.tail }

/-- R184: at the engine's turn with a command in flight, the step ends with ERR = ILLEGAL_CMD exactly when the stored word
is none of the 17, and then nothing but ERR, DONE and PHASE changes. -/
def Obligations.IllegalWordCompletes : Prop :=
  ∀ s : State, nextTurn s = .engine → s.engine.phase = .busy →
    ∃ t, step s = .next t ∧
      (t.engine.err = .illegalCmd ↔
        s.engine.cmd ∉ ([0x00000001, 0x00000002, 0x00000003, 0x00000004, 0x00000005, 0x00000006, 0x00000016, 0x00000026,
          0x00000007, 0x00000017, 0x00000027, 0x00000008, 0x00000018, 0x00000028, 0x00000009, 0x00000019,
          0x00000029] : List Word)) ∧
      (t.engine.err = .illegalCmd → endedInError .illegalCmd { s with schedule := s.schedule.tail } t)

/-- No step ends in a fault or a refusal: the sentence of R190 that nothing hangs and nothing is undefined, which the spec marks as
derived. -/
def Obligations.EveryStepAnswersNext : Prop := ∀ s : State, ∃ t, step s = .next t

/-- R43, R196: an engine that is IDLE does nothing in its turn. -/
def Obligations.IdleEngineWaits : Prop :=
  ∀ s : State, nextTurn s = .engine → s.engine.phase = .idle →
    step s = .next { s with schedule := s.schedule.tail }

/-- R45: the state after reset, entry by entry, and how its points, `irq` and the constants read. -/
def Obligations.ResetStateAsSpecified : Prop :=
  isResetEngine State.reset.engine ∧
  memRead 0x00 State.reset.engine = 0x00000000 ∧ memRead 0x01 State.reset.engine = 0x00000000 ∧
  memRead 0x02 State.reset.engine = 0x00000000 ∧ memRead 0x03 State.reset.engine = 0x00000007 ∧
  irq State.reset.engine = false ∧
  ptP State.reset.engine = .infinity ∧ ptQ State.reset.engine = .infinity ∧ ptR State.reset.engine = .infinity ∧
  (readReg .cp State.reset.engine = curveP ∧ readReg .cn State.reset.engine = curveN ∧
    readReg .ca State.reset.engine = curveA ∧ readReg .cb State.reset.engine = curveB ∧
    readReg .cgx State.reset.engine = curveGX ∧ readReg .cgy State.reset.engine = curveGY ∧
    readReg .ch State.reset.engine = curveH)

/-- R210, R211: the reset event puts the engine in the reset state from every state, a command in flight included; that the host
keeps its script and records is the model's choice (log 3). -/
def Obligations.ResetEventFromEveryState : Prop :=
  ∀ s : State, nextTurn s = .reset →
    ∃ t, step s = .next t ∧ isResetEngine t.engine ∧ irq t.engine = false ∧
      t.host = s.host ∧ t.schedule = s.schedule.tail

/-- R34, R36, R62: the invariant holds after reset. -/
def Obligations.InvariantAfterReset : Prop := Inv State.reset

/-- R34, R36, R62: every step of every agent keeps the invariant: BUSY and DONE are never both 1, ERR is 0 while BUSY, and a
result flagged as the identity has zero coordinates. -/
def Obligations.InvariantKeptByEveryStep : Prop :=
  ∀ s t : State, Inv s → step s = .next t → Inv t

/-- R26: the engine's turn writes no operand register and neither of PINF and QINF; nor does it write CMD or IE. -/
def Obligations.OperandsKeptByTheEngine : Prop :=
  ∀ s t : State, nextTurn s = .engine → step s = .next t →
    sameInputs s.engine t.engine

/-- R23, R67: a turn of the host leaves RX, RY, RINF and S as they are. -/
def Obligations.HostNeverWritesResults : Prop :=
  ∀ s t : State, nextTurn s = .host → step s = .next t →
    samePoint s.engine t.engine ∧ t.engine.s = s.engine.s

/-- R63, R220: while BUSY no turn of the host changes anything in the engine. -/
def Obligations.BusyEngineIgnoresTheHost : Prop :=
  ∀ s : State, s.engine.phase = .busy → nextTurn s = .host →
    ∃ t, step s = .next t ∧ t.engine = s.engine ∧ t.schedule = s.schedule.tail

/-- R40, R42, R67: the engine leaves BUSY only by its own turn or by reset, and becomes BUSY only in a turn of the host, which
then stored a command word and cleared DONE and ERR. -/
def Obligations.PhaseChangesOnlyByStartCompletionOrReset : Prop :=
  ∀ s t : State, step s = .next t →
    (s.engine.phase = .busy → t.engine.phase = .idle → nextTurn s = .engine ∨ nextTurn s = .reset) ∧
    (s.engine.phase = .idle → t.engine.phase = .busy → nextTurn s = .host ∧
      ∃ v, t.engine = { s.engine with cmd := v, done := false, err := .none, phase := .busy })

/-- R44, R70, R226 (the order of turns as data is the model's choice, log 1): however many turns the host has while a command is in flight, the completion step commits what it would
have committed at once. -/
def Obligations.CompletionIndependentOfLatency : Prop :=
  ∀ (n : Nat) (s : State), s.engine.phase = .busy →
    ∃ t u, runSteps (n + 1) { s with schedule := List.replicate n Turn.host ++ [Turn.engine] } = .next t ∧
      step { s with schedule := [Turn.engine] } = .next u ∧
      t.engine = u.engine ∧ t.engine.phase = .idle ∧ t.engine.done = true

/-- R97, R226: whatever the schedule holds, a WAIT ends within two steps after it, in a state with the engine IDLE, the last
poll having read STATUS with BUSY = 0, and that value recorded as the script's status. That a command in flight completes once
the schedule says nothing more is the model's choice (log 1), and so is the form of the poll (log 17). -/
def Obligations.WaitTerminates : Prop :=
  ∀ (s : State) (rest : List HostOp), s.host.script = .poll :: rest →
    ∃ n t v past, n ≤ s.schedule.length + 2 ∧ runSteps n s = .next t ∧ t.host.script = rest ∧ t.engine.phase = .idle ∧
      t.host.recorded = .status v :: .word 0x01 v :: past ∧ v = memRead 0x01 t.engine ∧ v.getLsbD 0 = false

/-- R42, R97: on an IDLE engine the script line `CMD i`, the host's turn and the engine's turn after it run the meaning of i,
on the engine that the start step left. -/
def Obligations.CommandLineStartsAndRuns : Prop :=
  ∀ (s : State) (i : Instr) (rest : List HostOp) (turns : List Turn), s.engine.phase = .idle →
    s.host.script = expandLine (.cmd i) ++ rest → s.schedule = Turn.host :: Turn.engine :: turns →
    runSteps 2 s = exec i
      { engine := { s.engine with cmd := encode i, done := false, err := .none, phase := .busy }
        host := { s.host with script := rest }
        schedule := turns }

/-! ### The port -/

/-- R62: what every word address reads; that a read transaction changes nothing but the host's record, in either phase; and that
while BUSY the results read as before the start step and ERR as 0. -/
def Obligations.ReadTransaction : Prop :=
  (∀ e : Engine,
    memRead 0x00 e = e.cmd ∧
    (memRead 0x01 e).toNat = 16 * (errBits e.err).toNat + 2 * e.done.toNat + (busy e).toNat ∧
    (memRead 0x02 e).toNat = e.ie.toNat ∧
    (memRead 0x03 e).toNat = 4 * e.rinf.toNat + 2 * e.qinf.toNat + e.pinf.toNat ∧
    (∀ (r : DataReg) (j : Nat) (w : WordAddr), j < 8 → w.toNat = 8 * regNumber r + j →
      (memRead w e).toNat = (readReg r e).toNat / 2 ^ (32 * j) % 2 ^ 32) ∧
    (∀ w : WordAddr, (4 ≤ w.toNat ∧ w.toNat ≤ 7) ∨ 0x98 ≤ w.toNat → memRead w e = 0)) ∧
  (∀ (s : State) (w : WordAddr) (rest : List HostOp), nextTurn s = .host → s.host.script = .read w :: rest →
    ∃ t, step s = .next t ∧ t.engine = s.engine ∧ t.host.script = rest ∧
      t.host.recorded = .word w (memRead w s.engine) :: s.host.recorded) ∧
  (∀ (e : Engine) (v : Word), e.phase = .idle → ∀ e', e' = memWrite 0x00 v e → e'.phase = .busy ∧ e'.err = .none ∧
    ∀ w : WordAddr, w ≠ 0x00 → w ≠ 0x01 → memRead w e' = memRead w e) ∧
  (∀ s t : State, s.engine.phase = .busy → nextTurn s = .host → step s = .next t → t.engine = s.engine)

/-- R63: the write transaction, address by address, and the turn of a host that makes one. -/
def Obligations.WriteTransaction : Prop :=
  (∀ (e : Engine) (w : WordAddr) (v : Word),
    (e.phase = .busy → memWrite w v e = e) ∧
    (e.phase = .idle →
      (w = 0x00 → memWrite w v e = { e with cmd := v, done := false, err := .none, phase := .busy }) ∧
      (w = 0x01 → memWrite w v e = if v.getLsbD 1 then { e with done := false } else e) ∧
      (w = 0x02 → memWrite w v e = { e with ie := v.getLsbD 0 }) ∧
      (w = 0x03 → memWrite w v e = { e with pinf := v.getLsbD 0, qinf := v.getLsbD 1 }) ∧
      ((0x08 ≤ w.toNat ∧ w.toNat ≤ 0x27) ∨ (0x38 ≤ w.toNat ∧ w.toNat ≤ 0x57) →
        memRead w (memWrite w v e) = v ∧ (∀ w' : WordAddr, w' ≠ w → memRead w' (memWrite w v e) = memRead w' e) ∧
        (memWrite w v e).phase = .idle) ∧
      ((0x04 ≤ w.toNat ∧ w.toNat ≤ 0x07) ∨ (0x28 ≤ w.toNat ∧ w.toNat ≤ 0x37) ∨ 0x58 ≤ w.toNat →
        memWrite w v e = e))) ∧
  (∀ (s : State) (w : WordAddr) (v : Word) (rest : List HostOp), nextTurn s = .host → s.host.script = .write w v :: rest →
    ∃ t, step s = .next t ∧ t.engine = memWrite w v s.engine ∧ t.host.script = rest ∧ t.host.recorded = s.host.recorded)

/-- R64: the value of a register is the sum of its words, the least significant at the lowest address. -/
def Obligations.RegisterIsTheSumOfItsWords : Prop :=
  ∀ (r : DataReg) (e : Engine),
    ∑ j ∈ Finset.range 8, (memRead (BitVec.ofNat 8 (8 * regNumber r + j)) e).toNat * 2 ^ (32 * j) = (readReg r e).toNat

/-- R31: the constants p, n, a, b, gx, gy, h read at their word addresses, whatever the engine holds. -/
def Obligations.ConstantsReadTheirValues : Prop :=
  ∀ (e : Engine) (base value : Nat),
    (base, value) ∈ ([(0x60, 2 ^ 256 - 2 ^ 32 - 977),
      (0x68, 0xFFFFFFFFFFFFFFFFFFFFFFFFFFFFFFFEBAAEDCE6AF48A03BBFD25E8CD0364141), (0x70, 0), (0x78, 7),
      (0x80, 0x79BE667EF9DCBBAC55A06295CE870B07029BFCDB2DCE28D959F2815B16F81798),
      (0x88, 0x483ADA7726A3C4655DA4FBFC0E1108A8FD17B448A68554199C47D08FFB10D4B8), (0x90, 1)] : List (Nat × Nat)) →
    ∑ j ∈ Finset.range 8, (memRead (BitVec.ofNat 8 (base + j)) e).toNat * 2 ^ (32 * j) = value

/-- R37, R185: `irq` after a completion is IE, with or without an error; the start step and the acknowledgement lower it. -/
def Obligations.IrqFollowsCompletion : Prop :=
  (∀ (i : Instr) (s : State), ∃ t, exec i s = .next t ∧ irq t.engine = s.engine.ie) ∧
  (∀ (e : Engine) (v : Word), e.phase = .idle → irq (memWrite 0x00 v e) = false) ∧
  (∀ (e : Engine) (v : Word), e.phase = .idle → v.getLsbD 1 = true → irq (memWrite 0x01 v e) = false)

/-- R97: the script line `WR256 reg, v` on an IDLE engine, its eight turns taken, leaves v in the register and every other word
of the register space as it was. The schedule is empty, so that the host has every turn: the model's choice (log 1); of the other
interleavings the statement says nothing. -/
def Obligations.WriteRegisterScript : Prop :=
  ∀ (s : State) (reg : DataReg) (v : Word256) (rest : List HostOp), s.engine.phase = .idle → s.schedule = [] →
    (HostLine.wr256 reg v).wellFormed = true → s.host.script = expandLine (.wr256 reg v) ++ rest →
    ∃ t, runSteps 8 s = .next t ∧ t.engine = setReg reg v s.engine ∧ readReg reg t.engine = v ∧
      (∀ r, r ≠ reg → readReg r t.engine = readReg r s.engine) ∧ t.host.script = rest

/-- R97: the script line `RD256 src`, its eight turns taken, records the value of the register after its eight words, and
changes nothing in the engine, which is IDLE; the script line `MOV256 dst, src`, its sixteen turns taken, copies the register. The
empty schedule is the model's choice (log 1), and so are the host operations that record a value and write its words (log 17). -/
def Obligations.MoveRegisterScript : Prop :=
  (∀ (s : State) (src : DataReg) (rest : List HostOp), s.engine.phase = .idle → s.schedule = [] →
    s.host.script = expandLine (.rd256 src) ++ rest →
    ∃ t, runSteps 8 s = .next t ∧ t.engine = s.engine ∧ t.host.script = rest ∧
      t.host.recorded = .value src (readReg src s.engine) ::
        ((List.range 8).map fun j => HostRecord.word (wordAddr src j) (getWord (readReg src s.engine) j)).reverse ++
          s.host.recorded) ∧
  (∀ (s : State) (dst src : DataReg) (rest : List HostOp), s.engine.phase = .idle → s.schedule = [] →
    (HostLine.mov256 dst src).wellFormed = true → s.host.script = expandLine (.mov256 dst src) ++ rest →
    ∃ t, runSteps 16 s = .next t ∧ t.engine = setReg dst (readReg src s.engine) s.engine ∧ t.host.script = rest)

/-- R97: the script line `MOVPT P, R` on an IDLE engine makes the operand P the result R: flag and coordinates. The empty schedule
is the model's choice (log 1), and so are the host operations (log 17) and the ignored bits of the PTFLAGS word, written 0
(log 20). -/
def Obligations.MovePointScript : Prop :=
  ∀ (s : State) (rest : List HostOp), s.engine.phase = .idle → s.schedule = [] →
    s.host.script = expandLine .movpt ++ rest →
    ∃ t, runSteps 34 s = .next t ∧ t.host.script = rest ∧
      t.engine = { s.engine with px := s.engine.rx, py := s.engine.ry, pinf := s.engine.rinf }

/-! ### The point group law -/

/-- R111: IDENTITY commits the identity, in canonical form, from every state. -/
def Obligations.IdentityCommitsInfinity : Prop :=
  ∀ s : State, ∃ t, exec .identity s = .next t ∧ committedPoint .infinity s t

/-- R114: the identity law, and what it says of the ADD command. -/
def Obligations.AddIdentityLaw : Prop :=
  (∀ P : Point, add P .infinity = some P ∧ add .infinity P = some P) ∧
  (∀ s : State,
    (s.engine.qinf = true → ∃ t, exec .add s = .next t ∧ committedPoint (ptP s.engine) s t ∧
      t.engine.rinf = s.engine.pinf ∧
      (s.engine.pinf = false → t.engine.rx = s.engine.px ∧ t.engine.ry = s.engine.py)) ∧
    (s.engine.pinf = true → ∃ t, exec .add s = .next t ∧ committedPoint (ptQ s.engine) s t ∧
      t.engine.rinf = s.engine.qinf ∧
      (s.engine.qinf = false → t.engine.rx = s.engine.qx ∧ t.engine.ry = s.engine.qy)))

/-- R112 step 3: affine operands with equal x and opposite, unequal y add to the identity. -/
def Obligations.AddOfOppositePoints : Prop :=
  ∀ s : State, s.engine.pinf = false → s.engine.qinf = false → s.engine.px = s.engine.qx →
    s.engine.py ≠ s.engine.qy → ((s.engine.py.toNat : Int) + s.engine.qy.toNat) % primeP = 0 →
    ∃ t, exec .add s = .next t ∧ committedPoint .infinity s t

/-- R112 step 4: affine operands with unequal x and an invertible difference of x: the chord through them has slope `lam`, and
ADD commits the third point's reflection. -/
def Obligations.AddByTheChord : Prop :=
  ∀ (s : State) (x1 y1 x2 y2 lam : Int), s.engine.pinf = false → s.engine.qinf = false →
    x1 = s.engine.px.toNat → y1 = s.engine.py.toNat → x2 = s.engine.qx.toNat → y2 = s.engine.qy.toNat →
    x1 ≠ x2 → Int.gcd (x2 - x1) primeP = 1 → 0 ≤ lam → lam < primeP →
    (lam * (x2 - x1) - (y2 - y1)) % primeP = 0 →
    let x3 := (lam * lam - x1 - x2) % primeP
    let y3 := (lam * (x1 - x3) - y1) % primeP
    ∃ t, exec .add s = .next t ∧ committedPoint (.affine x3 y3) s t

/-- R113: DOUBLE of the identity is the identity; of an affine operand with 2·y1 invertible it commits the tangent's point, `lam`
being the slope 3·x1² / 2·y1. -/
def Obligations.DoubleByTheTangent : Prop :=
  (∀ s : State, s.engine.pinf = true → ∃ t, exec .double s = .next t ∧ committedPoint .infinity s t) ∧
  (∀ (s : State) (x1 y1 lam : Int), s.engine.pinf = false → x1 = s.engine.px.toNat → y1 = s.engine.py.toNat →
    Int.gcd (2 * y1) primeP = 1 → 0 ≤ lam → lam < primeP → (lam * (2 * y1) - 3 * x1 * x1) % primeP = 0 →
    let x3 := (lam * lam - x1 - x1) % primeP
    let y3 := (lam * (x1 - x3) - y1) % primeP
    ∃ t, exec .double s = .next t ∧ committedPoint (.affine x3 y3) s t)

/-- R112: ADD fails exactly on two affine operands that are equal with 2·y1 ≡ 0, or have equal x and y neither equal nor
opposite, or have x unequal as register values and equal modulo p; then only ERR, DONE and PHASE change. -/
def Obligations.AddFailsExactly : Prop :=
  ∀ s : State, ∃ t, exec .add s = .next t ∧ t.engine.err ≠ .illegalCmd ∧
    (t.engine.err = .arithFail → endedInError .arithFail s t) ∧
    (t.engine.err = .arithFail ↔
      s.engine.pinf = false ∧ s.engine.qinf = false ∧
      ((s.engine.px = s.engine.qx ∧ s.engine.py = s.engine.qy ∧ (2 * (s.engine.py.toNat : Int)) % primeP = 0) ∨
       (s.engine.px = s.engine.qx ∧ s.engine.py ≠ s.engine.qy ∧
          ((s.engine.py.toNat : Int) + s.engine.qy.toNat) % primeP ≠ 0) ∨
       (s.engine.px ≠ s.engine.qx ∧ ((s.engine.qx.toNat : Int) - s.engine.px.toNat) % primeP = 0)))

/-- R113: DOUBLE fails exactly on an affine operand with y1 = 0 or y1 = p. -/
def Obligations.DoubleFailsExactly : Prop :=
  ∀ s : State, ∃ t, exec .double s = .next t ∧ t.engine.err ≠ .illegalCmd ∧
    (t.engine.err = .arithFail → endedInError .arithFail s t) ∧
    (t.engine.err = .arithFail ↔ s.engine.pinf = false ∧ (s.engine.py = 0 ∨ s.engine.py = curveP))

/-- Doubling consistency for every operand (the sentence of R115), and for every register content of the commands, a failing one
included (which the spec marks as derived from R112 and R113). -/
def Obligations.AddOfEqualOperandsIsDouble : Prop :=
  (∀ P : Point, add P P = double P) ∧
  (∀ s : State, s.engine.pinf = s.engine.qinf → s.engine.px = s.engine.qx → s.engine.py = s.engine.qy →
    exec .add s = exec .double s)

/-- ADD and DOUBLE of operands on the curve complete with ERR = 0, and the committed point is on the curve. The spec marks R117 as
derived from R112, R113 and R32, and rests R116 on general knowledge. -/
def Obligations.ValidOperandsNeverFail : Prop :=
  ∀ s : State, onCurve (ptP s.engine) = true →
    (onCurve (ptQ s.engine) = true →
      ∃ t v, exec .add s = .next t ∧ committedPoint v s t ∧ onCurve v = true) ∧
    (∃ t v, exec .double s = .next t ∧ committedPoint v s t ∧ onCurve v = true ∧
      (s.engine.pinf = false → v ≠ .infinity))

/-- R112 corner case (f): on the curve the order of the operands does not matter. -/
def Obligations.AddCommutesOnTheCurve : Prop :=
  ∀ P Q : Point, onCurve P = true → onCurve Q = true → add P Q = add Q P

/-- On the curve `add` is associative: a sentence of R116 that the spec takes from general knowledge. -/
def Obligations.AddAssociatesOnTheCurve : Prop :=
  ∀ P Q R : Point, onCurve P = true → onCurve Q = true → onCurve R = true →
    (add P Q).bind (fun X => add X R) = (add Q R).bind (fun Y => add P Y)

/-- R32: the invariants the source states of the constants, and the facts of them that the rules rely on, which R32 takes from
general knowledge (log 5): p and n are prime, G is on the curve, b ≠ 0; a = 0, h = 1, n is odd, 2^255 < n < p < 2^256; no point of
the curve has y = 0. That every point of the curve but the identity has order n is a clause of `UnreducedScalar`. -/
def Obligations.CurveConstantFacts : Prop := curveInvariants ∧ curveFacts ∧ noPointOfOrderTwo ∧ onCurve generator = true

/-! ### Scalar multiplication -/

/-- R130: the run of the sequencer is the rule's loop: it stops when k = 0, and otherwise makes one iteration and goes on. -/
def Obligations.SequencerIsTheWhileLoop : Prop :=
  ∀ q : Sequencer, runSequencer (bitlen q.k) q =
    if q.k = 0 then some q
    else (if q.k % 2 = 1 then add q.acc q.addend else some q.acc).bind fun acc =>
      (double q.addend).bind fun addend =>
        runSequencer (bitlen (q.k / 2)) ⟨acc, addend, q.k / 2⟩

/-- A run that does not fail makes `bitlen(k)` iterations, each with a doubling, and `popcount(k)` additions: R133, which the spec
marks as derived from R130. The function that counts is the model's own, and no step uses it (log 23). -/
def Obligations.OperationCounts : Prop :=
  ∀ (P : Point) (k : Nat) (v : Point), mulscalar P k = some v →
    mulscalarCounts P k = some ⟨bitlen k, bitlen k, popcount k⟩

/-- R131, for every operand, on the curve or not, and every scalar: MULSCALAR commits `mulscalar(PtP, K)`, or ends with ARITH_FAIL
where that fails. Corner cases (a), (b), (c): K = 0 gives the identity for every operand; the identity operand gives the identity
for every K; K = 1 returns an affine operand as it stands when its doubling succeeds and fails when it fails. -/
def Obligations.MulscalarCornerCases : Prop :=
  ∀ s : State,
    (∀ v, mulscalar (ptP s.engine) s.engine.k.toNat = some v → ∃ t, exec .mulscalar s = .next t ∧ committedPoint v s t) ∧
    (mulscalar (ptP s.engine) s.engine.k.toNat = none → ∃ t, exec .mulscalar s = .next t ∧ endedInError .arithFail s t) ∧
    (s.engine.k = 0 ∨ s.engine.pinf = true → ∃ t, exec .mulscalar s = .next t ∧ committedPoint .infinity s t) ∧
    (s.engine.k = 1 → s.engine.pinf = false → s.engine.py ≠ 0 → s.engine.py ≠ curveP →
      ∃ t, exec .mulscalar s = .next t ∧ committedPoint (ptP s.engine) s t) ∧
    (s.engine.k = 1 → s.engine.pinf = false → s.engine.py = 0 ∨ s.engine.py = curveP →
      ∃ t, exec .mulscalar s = .next t ∧ endedInError .arithFail s t)

/-- MULGEN does what MULSCALAR does with P = G: a sentence of R132 that the spec marks as derived from R131. -/
def Obligations.MulgenIsMulscalarOfG : Prop :=
  ∀ s : State, s.engine.pinf = false → s.engine.px = curveGX → s.engine.py = curveGY →
    exec .mulgen s = exec .mulscalar s

/-- R138, which the spec marks as derived from R130 and R117: with P on the curve MULSCALAR completes with ERR = 0 for every K, and MULGEN always does; the result is
`mulscalar(P, K)` and on the curve. -/
def Obligations.ScalarMultiplicationNeverFailsOnTheCurve : Prop :=
  ∀ s : State,
    (onCurve (ptP s.engine) = true →
      ∃ t v, exec .mulscalar s = .next t ∧ committedPoint v s t ∧ onCurve v = true ∧
        mulscalar (ptP s.engine) s.engine.k.toNat = some v) ∧
    (∃ t v, exec .mulgen s = .next t ∧ committedPoint v s t ∧ onCurve v = true ∧
      mulscalar generator s.engine.k.toNat = some v)

/-- For an operand on the curve, scalar multiplication is repeated addition, for every 256-bit scalar: the sentence of R134 that the
spec takes from general knowledge. -/
def Obligations.MulscalarIsRepeatedAddition : Prop :=
  ∀ (P : Point) (k : Nat), onCurve P = true → k < 2 ^ 256 → mulscalar P k = kFold P k

/-- R135: the additive homomorphism, for an operand on the curve: for a sum that fits 256 bits, supplied as it is, and for scalars
in [0, n), with the sum supplied as `modulo(a + b, n)`. -/
def Obligations.MulscalarOfASum : Prop :=
  ∀ (P : Point) (a b : Nat), onCurve P = true →
    (a + b < 2 ^ 256 →
      ∃ X Y Z, mulscalar P a = some X ∧ mulscalar P b = some Y ∧ add X Y = some Z ∧ mulscalar P (a + b) = some Z) ∧
    (a < curveN.toNat → b < curveN.toNat →
      ∃ X Y Z, mulscalar P a = some X ∧ mulscalar P b = some Y ∧ add X Y = some Z ∧
        mulscalar P (modulo ((a : Int) + b) orderN).toNat = some Z)

/-- An unreduced scalar gives what the reduced one gives: the sentence of R136 that the spec takes from general knowledge. Reducing
takes n off at most once. And the fact it rests on, a sentence of R32 (general knowledge, log 5): every point of the curve other
than the identity has order n. -/
def Obligations.UnreducedScalar : Prop :=
  curveHasOrderN ∧ ∀ (P : Point) (k : Nat), onCurve P = true → k < 2 ^ 256 →
    mulscalar P k = mulscalar P (modulo k orderN).toNat ∧ (modulo k orderN = k ∨ modulo k orderN = k - orderN)

/-! ### Field arithmetic -/

/-- R150: `modulo(a, m)` is the unique r in [0, m) with a - r divisible by m, by the cases of the sign of a; and it commutes with
addition, subtraction and multiplication. -/
def Obligations.ModuloIsTheEuclideanRemainder : Prop :=
  ∀ a m : Int, 0 < m →
    0 ≤ modulo a m ∧ modulo a m < m ∧ m ∣ a - modulo a m ∧
    (∀ r : Int, 0 ≤ r → r < m → m ∣ a - r → r = modulo a m) ∧
    (0 ≤ a → modulo a m = a - m * (a / m)) ∧
    (m ∣ a → modulo a m = 0) ∧
    (a < 0 → ¬ m ∣ a → modulo a m = m - (-a) % m) ∧
    ∀ b : Int,
      modulo (a + b) m = modulo (modulo a m + modulo b m) m ∧
      modulo (a - b) m = modulo (modulo a m - modulo b m) m ∧
      modulo (a * b) m = modulo (modulo a m * modulo b m) m

/-- R151: `invert(a, m)` fails exactly on m ≤ 0, on `modulo(a, m) = 0` and on gcd ≠ 1; otherwise it is the unique inverse in
[1, m - 1]. -/
def Obligations.InvertIsTheModularInverse : Prop :=
  ∀ a m : Int,
    (invert a m = none ↔ m ≤ 0 ∨ modulo a m = 0 ∨ Int.gcd a m ≠ 1) ∧
    (∀ r : Int, invert a m = some r →
      1 ≤ r ∧ r ≤ m - 1 ∧ modulo (a * r) m = 1 ∧
      ∀ r' : Int, 1 ≤ r' → r' ≤ m - 1 → modulo (a * r') m = 1 → r' = r)

/-- R154: each INVERT command commits the inverse of A modulo its m in [1, m - 1], or fails with nothing committed. -/
def Obligations.InvertCommands : Prop :=
  ∀ (s : State) (i : Instr) (m : Int),
    (i, m) ∈ ([(.invertP, primeP), (.invertN, orderN), (.invertM, (s.engine.m.toNat : Int))] : List (Instr × Int)) →
    (1 < m → Int.gcd s.engine.a.toNat m = 1 →
      ∃ t v, exec i s = .next t ∧ committedScalar v s t ∧ 1 ≤ v ∧ v ≤ m - 1 ∧ (s.engine.a.toNat * v) % m = 1) ∧
    (m = 0 ∨ m = 1 ∨ Int.gcd s.engine.a.toNat m ≠ 1 → ∃ t, exec i s = .next t ∧ endedInError .arithFail s t)

/-- R155: each MODULO command commits A mod m, or fails on m = 0 with nothing committed. -/
def Obligations.ModuloCommands : Prop :=
  ∀ (s : State) (i : Instr) (m : Int),
    (i, m) ∈ ([(.moduloP, primeP), (.moduloN, orderN), (.moduloM, (s.engine.m.toNat : Int))] : List (Instr × Int)) →
    (m ≠ 0 → ∃ t, exec i s = .next t ∧ committedScalar ((s.engine.a.toNat : Int) % m) s t) ∧
    (m = 0 → ∃ t, exec i s = .next t ∧ endedInError .arithFail s t)

/-- R156: each MULMOD command commits A·B mod m, of the exact product, or fails on m = 0 with nothing committed. -/
def Obligations.MulmodCommands : Prop :=
  ∀ (s : State) (i : Instr) (m : Int),
    (i, m) ∈ ([(.mulmodP, primeP), (.mulmodN, orderN), (.mulmodM, (s.engine.m.toNat : Int))] : List (Instr × Int)) →
    (m ≠ 0 → ∃ t, exec i s = .next t ∧
      committedScalar (((s.engine.a.toNat : Int) * s.engine.b.toNat) % m) s t) ∧
    (m = 0 → ∃ t, exec i s = .next t ∧ endedInError .arithFail s t)

/-- R157: each MONTMUL command commits, for odd m ≥ 3, the v in [0, m) with v·2^256 ≡ A·B modulo m, for any A and B; it fails on
m = 0, m = 1 and even m with nothing committed. -/
def Obligations.MontmulCommands : Prop :=
  ∀ (s : State) (i : Instr) (m : Int),
    (i, m) ∈ ([(.montmulP, primeP), (.montmulN, orderN), (.montmulM, (s.engine.m.toNat : Int))] : List (Instr × Int)) →
    (1 < m → m % 2 = 1 → ∃ t v, exec i s = .next t ∧ committedScalar v s t ∧ 0 ≤ v ∧ v < m ∧
      (v * 2 ^ 256 - (s.engine.a.toNat : Int) * s.engine.b.toNat) % m = 0) ∧
    (m ≤ 1 ∨ m % 2 = 0 → ∃ t, exec i s = .next t ∧ endedInError .arithFail s t)

/-- The failure summary of the field operations, row by row: R160, which the spec marks as derived from R154 to R157. -/
def Obligations.FieldFailureSummary : Prop :=
  ∀ s : State,
    (∀ i m, (i, m) ∈ ([(.invertP, primeP), (.invertN, orderN), (.invertM, (s.engine.m.toNat : Int))] : List (Instr × Int)) →
      (failsArith i s ↔ m = 0 ∨ modulo s.engine.a.toNat m = 0 ∨ Int.gcd s.engine.a.toNat m ≠ 1)) ∧
    (∀ i m, (i, m) ∈ ([(.moduloP, primeP), (.moduloN, orderN), (.moduloM, (s.engine.m.toNat : Int)), (.mulmodP, primeP),
        (.mulmodN, orderN), (.mulmodM, (s.engine.m.toNat : Int))] : List (Instr × Int)) → (failsArith i s ↔ m = 0)) ∧
    (∀ i m, (i, m) ∈ ([(.montmulP, primeP), (.montmulN, orderN), (.montmulM, (s.engine.m.toNat : Int))] :
        List (Instr × Int)) → (failsArith i s ↔ m = 0 ∨ m = 1 ∨ m % 2 = 0)) ∧
    (failsArith .invertP s ↔ s.engine.a = 0 ∨ s.engine.a = curveP) ∧
    (failsArith .invertN s ↔ s.engine.a = 0 ∨ s.engine.a = curveN) ∧
    (∀ i ∈ ([.moduloP, .moduloN, .mulmodP, .mulmodN, .montmulP, .montmulN] : List Instr), ¬ failsArith i s)

/-- R154, R156: an inverse that INVERT committed, copied to B, gives 1 under MULMOD with the same modulus. -/
def Obligations.InverseTimesOperandIsOne : Prop :=
  ∀ (s t : State) (i j : Instr),
    (i, j) ∈ ([(.invertP, .mulmodP), (.invertN, .mulmodN), (.invertM, .mulmodM)] : List (Instr × Instr)) →
    exec i s = .next t → t.engine.err = .none →
    ∃ u, exec j { t with engine := { t.engine with b := t.engine.s } } = .next u ∧ u.engine.s = 1 ∧ u.engine.err = .none

/-- The four laws of R157, which the spec marks as derived: the three of the Montgomery form, for an odd modulus of at least 3, and
`MONTMUL(A, B) = MULMOD(MULMOD(A, B), rinv)`, for every modulus, both sides failing alike. -/
def Obligations.MontgomeryFormLaws : Prop :=
  (∀ m : Int, 3 ≤ m → m % 2 = 1 → ∀ x y : Int,
    let mont := fun z : Int => modulo (z * 2 ^ 256) m
    montmul (mont x) (mont y) m = some (mont (x * y)) ∧
    montmul x (modulo (2 ^ 512) m) m = some (mont x) ∧
    montmul (mont x) 1 m = some (modulo x m)) ∧
  (∀ a b m : Int,
    montmul a b m = (invert (2 ^ 256) m).bind fun rinv => (mulmod a b m).bind fun c => mulmod c rinv m)

/-- R158, an informative note: the reduction without a division by m gives the value of R157, for odd m ≥ 3 and operands below m. -/
def Obligations.MontgomeryReductionAgrees : Prop :=
  ∀ m a b : Int, 3 ≤ m → m < 2 ^ 256 → m % 2 = 1 → 0 ≤ a → a < m → 0 ≤ b → b < m →
    montgomeryReduce a b m = montmul a b m

/-! ### What every command leaves alone -/

/-- R110, R153, R43: every command answers a next state with DONE = 1 and PHASE = IDLE; it changes STATUS and, without an error,
its own result (R with RINF for a point command, S for a field command), and no other word of the register space. -/
def Obligations.CommandFrame : Prop :=
  ∀ (i : Instr) (s : State), ∃ t, exec i s = .next t ∧ t.engine.done = true ∧ t.engine.phase = .idle ∧
    sameInputs s.engine t.engine ∧ sameAgents s t ∧
    (i ∈ ([.identity, .add, .double, .mulscalar, .mulgen] : List Instr) → t.engine.s = s.engine.s ∧
      ∀ w : WordAddr, w ≠ 0x01 → w ≠ 0x03 → ¬ (0x28 ≤ w.toNat ∧ w.toNat ≤ 0x37) →
        memRead w t.engine = memRead w s.engine) ∧
    (i ∉ ([.identity, .add, .double, .mulscalar, .mulgen] : List Instr) → samePoint s.engine t.engine ∧
      ∀ w : WordAddr, w ≠ 0x01 → ¬ (0x58 ≤ w.toNat ∧ w.toNat ≤ 0x5F) → memRead w t.engine = memRead w s.engine)

/-- R187: a command that ends with an error has changed ERR, DONE and PHASE and nothing else. -/
def Obligations.ErrorChangesNothingElse : Prop :=
  ∀ (i : Instr) (s t : State), exec i s = .next t → t.engine.err ≠ .none → endedInError .arithFail s t

/-- R43, R92, R22: the outcome of a command depends on the registers its row of R92 reads and on nothing else; the coordinates
of an operand that is the identity are not among them. -/
def Obligations.ResultDependsOnlyOnItsOperands : Prop :=
  ∀ (i : Instr) (s s' t t' : State), exec i s = .next t → exec i s' = .next t' →
    (i ∈ ([.add, .double, .mulscalar] : List Instr) → ptP s'.engine = ptP s.engine) →
    (i = .add → ptQ s'.engine = ptQ s.engine) →
    (i ∈ ([.mulscalar, .mulgen] : List Instr) → s'.engine.k = s.engine.k) →
    (i ∉ ([.identity, .add, .double, .mulscalar, .mulgen] : List Instr) → s'.engine.a = s.engine.a) →
    (i ∈ ([.mulmodP, .mulmodN, .mulmodM, .montmulP, .montmulN, .montmulM] : List Instr) → s'.engine.b = s.engine.b) →
    (i ∈ ([.invertM, .moduloM, .mulmodM, .montmulM] : List Instr) → s'.engine.m = s.engine.m) →
    t'.engine.err = t.engine.err ∧
    (t.engine.err = .none →
      (i ∈ ([.identity, .add, .double, .mulscalar, .mulgen] : List Instr) → samePoint t.engine t'.engine) ∧
      (i ∉ ([.identity, .add, .double, .mulscalar, .mulgen] : List Instr) → t'.engine.s = t.engine.s))
end

