-- ==== Sys2Proof/Laws/State.lean ====
section
/-! SUPPORT. One lemma per field per update of the engine and of the state, so that no later proof unfolds a record update. -/

namespace Sys2Proof.Machine

/-! startStep -/

@[simp] theorem startStep_phase (v : Word) (e : Engine) : (startStep v e).phase = .busy := rfl
@[simp] theorem startStep_cmd (v : Word) (e : Engine) : (startStep v e).cmd = v := rfl
@[simp] theorem startStep_done (v : Word) (e : Engine) : (startStep v e).done = false := rfl
@[simp] theorem startStep_err (v : Word) (e : Engine) : (startStep v e).err = .none := rfl
@[simp] theorem startStep_ie (v : Word) (e : Engine) : (startStep v e).ie = e.ie := rfl
@[simp] theorem startStep_pinf (v : Word) (e : Engine) : (startStep v e).pinf = e.pinf := rfl
@[simp] theorem startStep_qinf (v : Word) (e : Engine) : (startStep v e).qinf = e.qinf := rfl
@[simp] theorem startStep_rinf (v : Word) (e : Engine) : (startStep v e).rinf = e.rinf := rfl
@[simp] theorem startStep_px (v : Word) (e : Engine) : (startStep v e).px = e.px := rfl
@[simp] theorem startStep_py (v : Word) (e : Engine) : (startStep v e).py = e.py := rfl
@[simp] theorem startStep_qx (v : Word) (e : Engine) : (startStep v e).qx = e.qx := rfl
@[simp] theorem startStep_qy (v : Word) (e : Engine) : (startStep v e).qy = e.qy := rfl
@[simp] theorem startStep_rx (v : Word) (e : Engine) : (startStep v e).rx = e.rx := rfl
@[simp] theorem startStep_ry (v : Word) (e : Engine) : (startStep v e).ry = e.ry := rfl
@[simp] theorem startStep_k (v : Word) (e : Engine) : (startStep v e).k = e.k := rfl
@[simp] theorem startStep_a (v : Word) (e : Engine) : (startStep v e).a = e.a := rfl
@[simp] theorem startStep_b (v : Word) (e : Engine) : (startStep v e).b = e.b := rfl
@[simp] theorem startStep_m (v : Word) (e : Engine) : (startStep v e).m = e.m := rfl
@[simp] theorem startStep_s (v : Word) (e : Engine) : (startStep v e).s = e.s := rfl

/-! endCommand -/

@[simp] theorem endCommand_phase (code : ErrCode) (e : Engine) : (endCommand code e).phase = .idle := rfl
@[simp] theorem endCommand_cmd (code : ErrCode) (e : Engine) : (endCommand code e).cmd = e.cmd := rfl
@[simp] theorem endCommand_done (code : ErrCode) (e : Engine) : (endCommand code e).done = true := rfl
@[simp] theorem endCommand_err (code : ErrCode) (e : Engine) : (endCommand code e).err = code := rfl
@[simp] theorem endCommand_ie (code : ErrCode) (e : Engine) : (endCommand code e).ie = e.ie := rfl
@[simp] theorem endCommand_pinf (code : ErrCode) (e : Engine) : (endCommand code e).pinf = e.pinf := rfl
@[simp] theorem endCommand_qinf (code : ErrCode) (e : Engine) : (endCommand code e).qinf = e.qinf := rfl
@[simp] theorem endCommand_rinf (code : ErrCode) (e : Engine) : (endCommand code e).rinf = e.rinf := rfl
@[simp] theorem endCommand_px (code : ErrCode) (e : Engine) : (endCommand code e).px = e.px := rfl
@[simp] theorem endCommand_py (code : ErrCode) (e : Engine) : (endCommand code e).py = e.py := rfl
@[simp] theorem endCommand_qx (code : ErrCode) (e : Engine) : (endCommand code e).qx = e.qx := rfl
@[simp] theorem endCommand_qy (code : ErrCode) (e : Engine) : (endCommand code e).qy = e.qy := rfl
@[simp] theorem endCommand_rx (code : ErrCode) (e : Engine) : (endCommand code e).rx = e.rx := rfl
@[simp] theorem endCommand_ry (code : ErrCode) (e : Engine) : (endCommand code e).ry = e.ry := rfl
@[simp] theorem endCommand_k (code : ErrCode) (e : Engine) : (endCommand code e).k = e.k := rfl
@[simp] theorem endCommand_a (code : ErrCode) (e : Engine) : (endCommand code e).a = e.a := rfl
@[simp] theorem endCommand_b (code : ErrCode) (e : Engine) : (endCommand code e).b = e.b := rfl
@[simp] theorem endCommand_m (code : ErrCode) (e : Engine) : (endCommand code e).m = e.m := rfl
@[simp] theorem endCommand_s (code : ErrCode) (e : Engine) : (endCommand code e).s = e.s := rfl

/-! errorCompletion -/

@[simp] theorem errorCompletion_phase (code : ErrCode) (e : Engine) : (errorCompletion code e).phase = .idle := rfl
@[simp] theorem errorCompletion_cmd (code : ErrCode) (e : Engine) : (errorCompletion code e).cmd = e.cmd := rfl
@[simp] theorem errorCompletion_done (code : ErrCode) (e : Engine) : (errorCompletion code e).done = true := rfl
@[simp] theorem errorCompletion_err (code : ErrCode) (e : Engine) : (errorCompletion code e).err = code := rfl
@[simp] theorem errorCompletion_ie (code : ErrCode) (e : Engine) : (errorCompletion code e).ie = e.ie := rfl
@[simp] theorem errorCompletion_pinf (code : ErrCode) (e : Engine) : (errorCompletion code e).pinf = e.pinf := rfl
@[simp] theorem errorCompletion_qinf (code : ErrCode) (e : Engine) : (errorCompletion code e).qinf = e.qinf := rfl
@[simp] theorem errorCompletion_rinf (code : ErrCode) (e : Engine) : (errorCompletion code e).rinf = e.rinf := rfl
@[simp] theorem errorCompletion_px (code : ErrCode) (e : Engine) : (errorCompletion code e).px = e.px := rfl
@[simp] theorem errorCompletion_py (code : ErrCode) (e : Engine) : (errorCompletion code e).py = e.py := rfl
@[simp] theorem errorCompletion_qx (code : ErrCode) (e : Engine) : (errorCompletion code e).qx = e.qx := rfl
@[simp] theorem errorCompletion_qy (code : ErrCode) (e : Engine) : (errorCompletion code e).qy = e.qy := rfl
@[simp] theorem errorCompletion_rx (code : ErrCode) (e : Engine) : (errorCompletion code e).rx = e.rx := rfl
@[simp] theorem errorCompletion_ry (code : ErrCode) (e : Engine) : (errorCompletion code e).ry = e.ry := rfl
@[simp] theorem errorCompletion_k (code : ErrCode) (e : Engine) : (errorCompletion code e).k = e.k := rfl
@[simp] theorem errorCompletion_a (code : ErrCode) (e : Engine) : (errorCompletion code e).a = e.a := rfl
@[simp] theorem errorCompletion_b (code : ErrCode) (e : Engine) : (errorCompletion code e).b = e.b := rfl
@[simp] theorem errorCompletion_m (code : ErrCode) (e : Engine) : (errorCompletion code e).m = e.m := rfl
@[simp] theorem errorCompletion_s (code : ErrCode) (e : Engine) : (errorCompletion code e).s = e.s := rfl

/-! commitScalar -/

@[simp] theorem commitScalar_phase (v : Int) (e : Engine) : (commitScalar v e).phase = e.phase := rfl
@[simp] theorem commitScalar_cmd (v : Int) (e : Engine) : (commitScalar v e).cmd = e.cmd := rfl
@[simp] theorem commitScalar_done (v : Int) (e : Engine) : (commitScalar v e).done = e.done := rfl
@[simp] theorem commitScalar_err (v : Int) (e : Engine) : (commitScalar v e).err = e.err := rfl
@[simp] theorem commitScalar_ie (v : Int) (e : Engine) : (commitScalar v e).ie = e.ie := rfl
@[simp] theorem commitScalar_pinf (v : Int) (e : Engine) : (commitScalar v e).pinf = e.pinf := rfl
@[simp] theorem commitScalar_qinf (v : Int) (e : Engine) : (commitScalar v e).qinf = e.qinf := rfl
@[simp] theorem commitScalar_rinf (v : Int) (e : Engine) : (commitScalar v e).rinf = e.rinf := rfl
@[simp] theorem commitScalar_px (v : Int) (e : Engine) : (commitScalar v e).px = e.px := rfl
@[simp] theorem commitScalar_py (v : Int) (e : Engine) : (commitScalar v e).py = e.py := rfl
@[simp] theorem commitScalar_qx (v : Int) (e : Engine) : (commitScalar v e).qx = e.qx := rfl
@[simp] theorem commitScalar_qy (v : Int) (e : Engine) : (commitScalar v e).qy = e.qy := rfl
@[simp] theorem commitScalar_rx (v : Int) (e : Engine) : (commitScalar v e).rx = e.rx := rfl
@[simp] theorem commitScalar_ry (v : Int) (e : Engine) : (commitScalar v e).ry = e.ry := rfl
@[simp] theorem commitScalar_k (v : Int) (e : Engine) : (commitScalar v e).k = e.k := rfl
@[simp] theorem commitScalar_a (v : Int) (e : Engine) : (commitScalar v e).a = e.a := rfl
@[simp] theorem commitScalar_b (v : Int) (e : Engine) : (commitScalar v e).b = e.b := rfl
@[simp] theorem commitScalar_m (v : Int) (e : Engine) : (commitScalar v e).m = e.m := rfl
@[simp] theorem commitScalar_s (v : Int) (e : Engine) : (commitScalar v e).s = BitVec.ofInt 256 v := rfl

/-! commitPoint -/

@[simp] theorem commitPoint_phase (v : Point) (e : Engine) : (commitPoint v e).phase = e.phase := by cases v <;> rfl
@[simp] theorem commitPoint_cmd (v : Point) (e : Engine) : (commitPoint v e).cmd = e.cmd := by cases v <;> rfl
@[simp] theorem commitPoint_done (v : Point) (e : Engine) : (commitPoint v e).done = e.done := by cases v <;> rfl
@[simp] theorem commitPoint_err (v : Point) (e : Engine) : (commitPoint v e).err = e.err := by cases v <;> rfl
@[simp] theorem commitPoint_ie (v : Point) (e : Engine) : (commitPoint v e).ie = e.ie := by cases v <;> rfl
@[simp] theorem commitPoint_pinf (v : Point) (e : Engine) : (commitPoint v e).pinf = e.pinf := by cases v <;> rfl
@[simp] theorem commitPoint_qinf (v : Point) (e : Engine) : (commitPoint v e).qinf = e.qinf := by cases v <;> rfl
@[simp] theorem commitPoint_px (v : Point) (e : Engine) : (commitPoint v e).px = e.px := by cases v <;> rfl
@[simp] theorem commitPoint_py (v : Point) (e : Engine) : (commitPoint v e).py = e.py := by cases v <;> rfl
@[simp] theorem commitPoint_qx (v : Point) (e : Engine) : (commitPoint v e).qx = e.qx := by cases v <;> rfl
@[simp] theorem commitPoint_qy (v : Point) (e : Engine) : (commitPoint v e).qy = e.qy := by cases v <;> rfl
@[simp] theorem commitPoint_k (v : Point) (e : Engine) : (commitPoint v e).k = e.k := by cases v <;> rfl
@[simp] theorem commitPoint_a (v : Point) (e : Engine) : (commitPoint v e).a = e.a := by cases v <;> rfl
@[simp] theorem commitPoint_b (v : Point) (e : Engine) : (commitPoint v e).b = e.b := by cases v <;> rfl
@[simp] theorem commitPoint_m (v : Point) (e : Engine) : (commitPoint v e).m = e.m := by cases v <;> rfl
@[simp] theorem commitPoint_s (v : Point) (e : Engine) : (commitPoint v e).s = e.s := by cases v <;> rfl

@[simp] theorem commitPoint_infinity_rinf (e : Engine) : (commitPoint .infinity e).rinf = true := rfl
@[simp] theorem commitPoint_affine_rinf (x y : Int) (e : Engine) : (commitPoint (.affine x y) e).rinf = false := rfl
@[simp] theorem commitPoint_infinity_rx (e : Engine) : (commitPoint .infinity e).rx = 0 := rfl
@[simp] theorem commitPoint_affine_rx (x y : Int) (e : Engine) : (commitPoint (.affine x y) e).rx = BitVec.ofInt 256 x := rfl
@[simp] theorem commitPoint_infinity_ry (e : Engine) : (commitPoint .infinity e).ry = 0 := rfl
@[simp] theorem commitPoint_affine_ry (x y : Int) (e : Engine) : (commitPoint (.affine x y) e).ry = BitVec.ofInt 256 y := rfl

/-! writeCtrl -/

@[simp] theorem writeCtrl_phase (v : Word) (e : Engine) : (writeCtrl v e).phase = e.phase := rfl
@[simp] theorem writeCtrl_cmd (v : Word) (e : Engine) : (writeCtrl v e).cmd = e.cmd := rfl
@[simp] theorem writeCtrl_done (v : Word) (e : Engine) : (writeCtrl v e).done = e.done := rfl
@[simp] theorem writeCtrl_err (v : Word) (e : Engine) : (writeCtrl v e).err = e.err := rfl
@[simp] theorem writeCtrl_ie (v : Word) (e : Engine) : (writeCtrl v e).ie = v.getLsbD 0 := rfl
@[simp] theorem writeCtrl_pinf (v : Word) (e : Engine) : (writeCtrl v e).pinf = e.pinf := rfl
@[simp] theorem writeCtrl_qinf (v : Word) (e : Engine) : (writeCtrl v e).qinf = e.qinf := rfl
@[simp] theorem writeCtrl_rinf (v : Word) (e : Engine) : (writeCtrl v e).rinf = e.rinf := rfl
@[simp] theorem writeCtrl_px (v : Word) (e : Engine) : (writeCtrl v e).px = e.px := rfl
@[simp] theorem writeCtrl_py (v : Word) (e : Engine) : (writeCtrl v e).py = e.py := rfl
@[simp] theorem writeCtrl_qx (v : Word) (e : Engine) : (writeCtrl v e).qx = e.qx := rfl
@[simp] theorem writeCtrl_qy (v : Word) (e : Engine) : (writeCtrl v e).qy = e.qy := rfl
@[simp] theorem writeCtrl_rx (v : Word) (e : Engine) : (writeCtrl v e).rx = e.rx := rfl
@[simp] theorem writeCtrl_ry (v : Word) (e : Engine) : (writeCtrl v e).ry = e.ry := rfl
@[simp] theorem writeCtrl_k (v : Word) (e : Engine) : (writeCtrl v e).k = e.k := rfl
@[simp] theorem writeCtrl_a (v : Word) (e : Engine) : (writeCtrl v e).a = e.a := rfl
@[simp] theorem writeCtrl_b (v : Word) (e : Engine) : (writeCtrl v e).b = e.b := rfl
@[simp] theorem writeCtrl_m (v : Word) (e : Engine) : (writeCtrl v e).m = e.m := rfl
@[simp] theorem writeCtrl_s (v : Word) (e : Engine) : (writeCtrl v e).s = e.s := rfl

/-! writePtflags -/

@[simp] theorem writePtflags_phase (v : Word) (e : Engine) : (writePtflags v e).phase = e.phase := rfl
@[simp] theorem writePtflags_cmd (v : Word) (e : Engine) : (writePtflags v e).cmd = e.cmd := rfl
@[simp] theorem writePtflags_done (v : Word) (e : Engine) : (writePtflags v e).done = e.done := rfl
@[simp] theorem writePtflags_err (v : Word) (e : Engine) : (writePtflags v e).err = e.err := rfl
@[simp] theorem writePtflags_ie (v : Word) (e : Engine) : (writePtflags v e).ie = e.ie := rfl
@[simp] theorem writePtflags_pinf (v : Word) (e : Engine) : (writePtflags v e).pinf = v.getLsbD 0 := rfl
@[simp] theorem writePtflags_qinf (v : Word) (e : Engine) : (writePtflags v e).qinf = v.getLsbD 1 := rfl
@[simp] theorem writePtflags_rinf (v : Word) (e : Engine) : (writePtflags v e).rinf = e.rinf := rfl
@[simp] theorem writePtflags_px (v : Word) (e : Engine) : (writePtflags v e).px = e.px := rfl
@[simp] theorem writePtflags_py (v : Word) (e : Engine) : (writePtflags v e).py = e.py := rfl
@[simp] theorem writePtflags_qx (v : Word) (e : Engine) : (writePtflags v e).qx = e.qx := rfl
@[simp] theorem writePtflags_qy (v : Word) (e : Engine) : (writePtflags v e).qy = e.qy := rfl
@[simp] theorem writePtflags_rx (v : Word) (e : Engine) : (writePtflags v e).rx = e.rx := rfl
@[simp] theorem writePtflags_ry (v : Word) (e : Engine) : (writePtflags v e).ry = e.ry := rfl
@[simp] theorem writePtflags_k (v : Word) (e : Engine) : (writePtflags v e).k = e.k := rfl
@[simp] theorem writePtflags_a (v : Word) (e : Engine) : (writePtflags v e).a = e.a := rfl
@[simp] theorem writePtflags_b (v : Word) (e : Engine) : (writePtflags v e).b = e.b := rfl
@[simp] theorem writePtflags_m (v : Word) (e : Engine) : (writePtflags v e).m = e.m := rfl
@[simp] theorem writePtflags_s (v : Word) (e : Engine) : (writePtflags v e).s = e.s := rfl

/-! writeStatus -/

@[simp] theorem writeStatus_phase (v : Word) (e : Engine) : (writeStatus v e).phase = e.phase := by unfold writeStatus; split <;> simp_all
@[simp] theorem writeStatus_cmd (v : Word) (e : Engine) : (writeStatus v e).cmd = e.cmd := by unfold writeStatus; split <;> simp_all
@[simp] theorem writeStatus_done (v : Word) (e : Engine) : (writeStatus v e).done = (e.done && !v.getLsbD 1) := by unfold writeStatus; split <;> simp_all
@[simp] theorem writeStatus_err (v : Word) (e : Engine) : (writeStatus v e).err = e.err := by unfold writeStatus; split <;> simp_all
@[simp] theorem writeStatus_ie (v : Word) (e : Engine) : (writeStatus v e).ie = e.ie := by unfold writeStatus; split <;> simp_all
@[simp] theorem writeStatus_pinf (v : Word) (e : Engine) : (writeStatus v e).pinf = e.pinf := by unfold writeStatus; split <;> simp_all
@[simp] theorem writeStatus_qinf (v : Word) (e : Engine) : (writeStatus v e).qinf = e.qinf := by unfold writeStatus; split <;> simp_all
@[simp] theorem writeStatus_rinf (v : Word) (e : Engine) : (writeStatus v e).rinf = e.rinf := by unfold writeStatus; split <;> simp_all
@[simp] theorem writeStatus_px (v : Word) (e : Engine) : (writeStatus v e).px = e.px := by unfold writeStatus; split <;> simp_all
@[simp] theorem writeStatus_py (v : Word) (e : Engine) : (writeStatus v e).py = e.py := by unfold writeStatus; split <;> simp_all
@[simp] theorem writeStatus_qx (v : Word) (e : Engine) : (writeStatus v e).qx = e.qx := by unfold writeStatus; split <;> simp_all
@[simp] theorem writeStatus_qy (v : Word) (e : Engine) : (writeStatus v e).qy = e.qy := by unfold writeStatus; split <;> simp_all
@[simp] theorem writeStatus_rx (v : Word) (e : Engine) : (writeStatus v e).rx = e.rx := by unfold writeStatus; split <;> simp_all
@[simp] theorem writeStatus_ry (v : Word) (e : Engine) : (writeStatus v e).ry = e.ry := by unfold writeStatus; split <;> simp_all
@[simp] theorem writeStatus_k (v : Word) (e : Engine) : (writeStatus v e).k = e.k := by unfold writeStatus; split <;> simp_all
@[simp] theorem writeStatus_a (v : Word) (e : Engine) : (writeStatus v e).a = e.a := by unfold writeStatus; split <;> simp_all
@[simp] theorem writeStatus_b (v : Word) (e : Engine) : (writeStatus v e).b = e.b := by unfold writeStatus; split <;> simp_all
@[simp] theorem writeStatus_m (v : Word) (e : Engine) : (writeStatus v e).m = e.m := by unfold writeStatus; split <;> simp_all
@[simp] theorem writeStatus_s (v : Word) (e : Engine) : (writeStatus v e).s = e.s := by unfold writeStatus; split <;> simp_all

/-! setReg -/

@[simp] theorem setReg_phase (r : DataReg) (v : Word256) (e : Engine) : (setReg r v e).phase = e.phase := by cases r <;> rfl
@[simp] theorem setReg_cmd (r : DataReg) (v : Word256) (e : Engine) : (setReg r v e).cmd = e.cmd := by cases r <;> rfl
@[simp] theorem setReg_done (r : DataReg) (v : Word256) (e : Engine) : (setReg r v e).done = e.done := by cases r <;> rfl
@[simp] theorem setReg_err (r : DataReg) (v : Word256) (e : Engine) : (setReg r v e).err = e.err := by cases r <;> rfl
@[simp] theorem setReg_ie (r : DataReg) (v : Word256) (e : Engine) : (setReg r v e).ie = e.ie := by cases r <;> rfl
@[simp] theorem setReg_pinf (r : DataReg) (v : Word256) (e : Engine) : (setReg r v e).pinf = e.pinf := by cases r <;> rfl
@[simp] theorem setReg_qinf (r : DataReg) (v : Word256) (e : Engine) : (setReg r v e).qinf = e.qinf := by cases r <;> rfl
@[simp] theorem setReg_rinf (r : DataReg) (v : Word256) (e : Engine) : (setReg r v e).rinf = e.rinf := by cases r <;> rfl

theorem setReg_px (r : DataReg) (v : Word256) (e : Engine) : (setReg r v e).px = if r = .px then v else e.px := by
  cases r <;> rfl
theorem setReg_py (r : DataReg) (v : Word256) (e : Engine) : (setReg r v e).py = if r = .py then v else e.py := by
  cases r <;> rfl
theorem setReg_qx (r : DataReg) (v : Word256) (e : Engine) : (setReg r v e).qx = if r = .qx then v else e.qx := by
  cases r <;> rfl
theorem setReg_qy (r : DataReg) (v : Word256) (e : Engine) : (setReg r v e).qy = if r = .qy then v else e.qy := by
  cases r <;> rfl
theorem setReg_rx (r : DataReg) (v : Word256) (e : Engine) : (setReg r v e).rx = if r = .rx then v else e.rx := by
  cases r <;> rfl
theorem setReg_ry (r : DataReg) (v : Word256) (e : Engine) : (setReg r v e).ry = if r = .ry then v else e.ry := by
  cases r <;> rfl
theorem setReg_k (r : DataReg) (v : Word256) (e : Engine) : (setReg r v e).k = if r = .k then v else e.k := by
  cases r <;> rfl
theorem setReg_a (r : DataReg) (v : Word256) (e : Engine) : (setReg r v e).a = if r = .a then v else e.a := by
  cases r <;> rfl
theorem setReg_b (r : DataReg) (v : Word256) (e : Engine) : (setReg r v e).b = if r = .b then v else e.b := by
  cases r <;> rfl
theorem setReg_m (r : DataReg) (v : Word256) (e : Engine) : (setReg r v e).m = if r = .m then v else e.m := by
  cases r <;> rfl
theorem setReg_s (r : DataReg) (v : Word256) (e : Engine) : (setReg r v e).s = if r = .s then v else e.s := by
  cases r <;> rfl

/-! The state: each update of one agent leaves the others. -/

@[simp] theorem takeTurn_engine (s : State) : (takeTurn s).engine = s.engine := rfl
@[simp] theorem takeTurn_host (s : State) : (takeTurn s).host = s.host := rfl
@[simp] theorem takeTurn_schedule (s : State) : (takeTurn s).schedule = s.schedule.tail := rfl
@[simp] theorem resetEngine_engine (s : State) : (resetEngine s).engine = Engine.reset := rfl
@[simp] theorem resetEngine_host (s : State) : (resetEngine s).host = s.host := rfl
@[simp] theorem resetEngine_schedule (s : State) : (resetEngine s).schedule = s.schedule := rfl
@[simp] theorem completeIllegal_engine (s : State) : (completeIllegal s).engine = errorCompletion .illegalCmd s.engine := rfl
@[simp] theorem completeIllegal_host (s : State) : (completeIllegal s).host = s.host := rfl
@[simp] theorem completeIllegal_schedule (s : State) : (completeIllegal s).schedule = s.schedule := rfl
@[simp] theorem hostRead_engine (w : WordAddr) (rest : List HostOp) (s : State) : (hostRead w rest s).engine = s.engine := rfl
@[simp] theorem hostRead_host (w : WordAddr) (rest : List HostOp) (s : State) : (hostRead w rest s).host = ⟨rest, .word w (memRead w s.engine) :: s.host.recorded⟩ := rfl
@[simp] theorem hostRead_schedule (w : WordAddr) (rest : List HostOp) (s : State) : (hostRead w rest s).schedule = s.schedule := rfl
@[simp] theorem hostRecord_engine (r : HostRecord) (s : State) : (hostRecord r s).engine = s.engine := rfl
@[simp] theorem hostRecord_host (r : HostRecord) (s : State) : (hostRecord r s).host = ⟨s.host.script, r :: s.host.recorded⟩ := rfl
@[simp] theorem hostRecord_schedule (r : HostRecord) (s : State) : (hostRecord r s).schedule = s.schedule := rfl
@[simp] theorem hostWrite_engine (w : WordAddr) (v : Word) (rest : List HostOp) (s : State) : (hostWrite w v rest s).engine = memWrite w v s.engine := rfl
@[simp] theorem hostWrite_host (w : WordAddr) (v : Word) (rest : List HostOp) (s : State) : (hostWrite w v rest s).host = ⟨rest, s.host.recorded⟩ := rfl
@[simp] theorem hostWrite_schedule (w : WordAddr) (v : Word) (rest : List HostOp) (s : State) : (hostWrite w v rest s).schedule = s.schedule := rfl
@[simp] theorem hostSkip_engine (rest : List HostOp) (s : State) : (hostSkip rest s).engine = s.engine := rfl
@[simp] theorem hostSkip_host (rest : List HostOp) (s : State) : (hostSkip rest s).host = ⟨rest, s.host.recorded⟩ := rfl
@[simp] theorem hostSkip_schedule (rest : List HostOp) (s : State) : (hostSkip rest s).schedule = s.schedule := rfl

/-! Reset. -/

@[simp] theorem Engine.reset_phase : Engine.reset.phase = .idle := rfl
@[simp] theorem Engine.reset_cmd : Engine.reset.cmd = 0 := rfl
@[simp] theorem Engine.reset_done : Engine.reset.done = false := rfl
@[simp] theorem Engine.reset_err : Engine.reset.err = .none := rfl
@[simp] theorem Engine.reset_ie : Engine.reset.ie = false := rfl
@[simp] theorem Engine.reset_pinf : Engine.reset.pinf = true := rfl
@[simp] theorem Engine.reset_qinf : Engine.reset.qinf = true := rfl
@[simp] theorem Engine.reset_rinf : Engine.reset.rinf = true := rfl
@[simp] theorem Engine.reset_px : Engine.reset.px = 0 := rfl
@[simp] theorem Engine.reset_py : Engine.reset.py = 0 := rfl
@[simp] theorem Engine.reset_qx : Engine.reset.qx = 0 := rfl
@[simp] theorem Engine.reset_qy : Engine.reset.qy = 0 := rfl
@[simp] theorem Engine.reset_rx : Engine.reset.rx = 0 := rfl
@[simp] theorem Engine.reset_ry : Engine.reset.ry = 0 := rfl
@[simp] theorem Engine.reset_k : Engine.reset.k = 0 := rfl
@[simp] theorem Engine.reset_a : Engine.reset.a = 0 := rfl
@[simp] theorem Engine.reset_b : Engine.reset.b = 0 := rfl
@[simp] theorem Engine.reset_m : Engine.reset.m = 0 := rfl
@[simp] theorem Engine.reset_s : Engine.reset.s = 0 := rfl

end Sys2Proof.Machine
end

