-- ==== Sys2Proof/Laws/Ops.lean ====
section
/-! SUPPORT. For each shared operation, what it can do, said once. -/

namespace Sys2Proof.Machine

/-! ### Completion -/

@[simp] theorem finish_eq (r : Result) (s : State) : finish r s = .next { s with engine := complete r s.engine } := rfl

@[simp] theorem complete_pt (v : Point) (e : Engine) : complete (.pt v) e = endCommand .none (commitPoint v e) := rfl

@[simp] theorem complete_sc (v : Int) (e : Engine) : complete (.sc v) e = endCommand .none (commitScalar v e) := rfl

@[simp] theorem complete_err (code : ErrCode) (e : Engine) : complete (.err code) e = errorCompletion code e := rfl

@[simp] theorem pointResult_some (v : Point) : pointResult (some v) = .pt v := rfl

@[simp] theorem pointResult_none : pointResult none = .err .arithFail := rfl

@[simp] theorem scalarResult_some (v : Int) : scalarResult (some v) = .sc v := rfl

@[simp] theorem scalarResult_none : scalarResult none = .err .arithFail := rfl

/-- Whatever the outcome, a completion leaves every input register, ends the command, and writes at most one result. -/
theorem complete_spec (r : Result) (e : Engine) :
    sameInputs e (complete r e) ∧ (complete r e).done = true ∧ (complete r e).phase = .idle ∧
      ((complete r e).s = e.s ∨ samePoint e (complete r e)) := by
  rcases r with v | v | code <;> simp [sameInputs, samePoint]

/-- Every command's meaning ends in a completion. -/
theorem exec_is_finish (i : Instr) (s : State) : ∃ r, exec i s = finish r s := by
  cases i <;> exact ⟨_, rfl⟩

/-- What each command's meaning is over the shared operations. -/
theorem exec_identity (s : State) : exec .identity s = finish (.pt .infinity) s := rfl

theorem exec_add (s : State) : exec .add s = finish (pointResult (add (ptP s.engine) (ptQ s.engine))) s := rfl

theorem exec_double (s : State) : exec .double s = finish (pointResult (double (ptP s.engine))) s := rfl

theorem exec_mulscalar (s : State) :
    exec .mulscalar s = finish (pointResult (mulscalar (ptP s.engine) s.engine.k.toNat)) s := rfl

theorem exec_mulgen (s : State) :
    exec .mulgen s = finish (pointResult (mulscalar generator s.engine.k.toNat)) s := rfl

theorem exec_invertP (s : State) : exec .invertP s = finish (scalarResult (invert s.engine.a.toNat primeP)) s := rfl

theorem exec_invertN (s : State) : exec .invertN s = finish (scalarResult (invert s.engine.a.toNat orderN)) s := rfl

theorem exec_invertM (s : State) :
    exec .invertM s = finish (scalarResult (invert s.engine.a.toNat s.engine.m.toNat)) s := rfl

theorem exec_moduloP (s : State) :
    exec .moduloP s = finish (scalarResult (moduloChecked s.engine.a.toNat primeP)) s := rfl

theorem exec_moduloN (s : State) :
    exec .moduloN s = finish (scalarResult (moduloChecked s.engine.a.toNat orderN)) s := rfl

theorem exec_moduloM (s : State) :
    exec .moduloM s = finish (scalarResult (moduloChecked s.engine.a.toNat s.engine.m.toNat)) s := rfl

theorem exec_mulmodP (s : State) :
    exec .mulmodP s = finish (scalarResult (mulmod s.engine.a.toNat s.engine.b.toNat primeP)) s := rfl

theorem exec_mulmodN (s : State) :
    exec .mulmodN s = finish (scalarResult (mulmod s.engine.a.toNat s.engine.b.toNat orderN)) s := rfl

theorem exec_mulmodM (s : State) :
    exec .mulmodM s = finish (scalarResult (mulmod s.engine.a.toNat s.engine.b.toNat s.engine.m.toNat)) s := rfl

theorem exec_montmulP (s : State) :
    exec .montmulP s = finish (scalarResult (montmul s.engine.a.toNat s.engine.b.toNat primeP)) s := rfl

theorem exec_montmulN (s : State) :
    exec .montmulN s = finish (scalarResult (montmul s.engine.a.toNat s.engine.b.toNat orderN)) s := rfl

theorem exec_montmulM (s : State) :
    exec .montmulM s = finish (scalarResult (montmul s.engine.a.toNat s.engine.b.toNat s.engine.m.toNat)) s := rfl

/-! ### Registers and words -/

@[simp] theorem regOfNumber_regNumber (r : DataReg) : regOfNumber (regNumber r) = some r := by cases r <;> rfl

theorem regNumber_bounds (r : DataReg) : 1 ≤ regNumber r ∧ regNumber r ≤ 18 := by cases r <;> decide

theorem regOfNumber_eq_some {i : Nat} {r : DataReg} (h : regOfNumber i = some r) : i = regNumber r := by
  unfold regOfNumber at h
  split at h <;> first | cases h; rfl | cases h

theorem regOfAddr_of_toNat {w : WordAddr} {r : DataReg} {j : Nat} (hj : j < 8) (hw : w.toNat = 8 * regNumber r + j) :
    regOfAddr w = some r := by
  have quotient : w.toNat / Config.wordsPerRegister = regNumber r := by show w.toNat / 8 = _; omega
  rw [regOfAddr, quotient, regOfNumber_regNumber]

theorem wordIndex_of_toNat {w : WordAddr} {r : DataReg} {j : Nat} (hj : j < 8) (hw : w.toNat = 8 * regNumber r + j) :
    wordIndex w = j := by
  show w.toNat % 8 = j
  omega

theorem wordAddr_toNat (r : DataReg) {j : Nat} (hj : j < 8) : (wordAddr r j).toNat = 8 * regNumber r + j := by
  have := regNumber_bounds r
  simp only [wordAddr, BitVec.toNat_ofNat]
  show (8 * regNumber r + j) % 2 ^ 8 = _
  omega

/-- A register reads what was last written to it, unless it is a constant. -/
theorem readReg_setReg (r r' : DataReg) (v : Word256) (e : Engine) :
    readReg r' (setReg r v e) = if r' = r ∧ regNumber r ≤ 11 then v else readReg r' e := by
  cases r <;> cases r' <;> rfl

theorem getWord_toNat (v : Word256) (j : Nat) : (getWord v j).toNat = v.toNat / 2 ^ (32 * j) % 2 ^ 32 := by
  simp [getWord, BitVec.extractLsb'_toNat, Nat.shiftRight_eq_div_pow]

/-! ### The port -/

@[simp] theorem memWrite_of_busy {e : Engine} (h : e.phase = .busy) (w : WordAddr) (v : Word) : memWrite w v e = e := by
  simp [memWrite, h]

/-- What a write transaction can do. -/
theorem memWrite_cases (w : WordAddr) (v : Word) (e : Engine) :
    memWrite w v e = e ∨
    (e.phase = .idle ∧
      ((w = 0x00 ∧ memWrite w v e = startStep v e) ∨ (w = 0x01 ∧ memWrite w v e = writeStatus v e) ∨
       (w = 0x02 ∧ memWrite w v e = writeCtrl v e) ∨ (w = 0x03 ∧ memWrite w v e = writePtflags v e) ∨
       (∃ r, regOfAddr w = some r ∧ hostWritable r = true ∧
          memWrite w v e = setReg r (setWord (readReg r e) (wordIndex w) v) e))) := by
  cases phase : e.phase with
  | busy => exact .inl (memWrite_of_busy phase w v)
  | idle =>
    by_cases h0 : w = 0#8
    · exact .inr ⟨rfl, .inl ⟨h0, by simp [memWrite, phase, h0]⟩⟩
    by_cases h1 : w = 1#8
    · exact .inr ⟨rfl, .inr (.inl ⟨h1, by simp [memWrite, phase, h1]⟩)⟩
    by_cases h2 : w = 2#8
    · exact .inr ⟨rfl, .inr (.inr (.inl ⟨h2, by simp [memWrite, phase, h2]⟩))⟩
    by_cases h3 : w = 3#8
    · exact .inr ⟨rfl, .inr (.inr (.inr (.inl ⟨h3, by simp [memWrite, phase, h3]⟩)))⟩
    cases reg : regOfAddr w with
    | none => exact .inl (by simp [memWrite, phase, h0, h1, h2, h3, reg])
    | some r =>
      cases writable : hostWritable r with
      | false => exact .inl (by simp [memWrite, phase, h0, h1, h2, h3, reg, writeDataWord, writable])
      | true =>
        exact .inr ⟨rfl, .inr (.inr (.inr (.inr ⟨r, rfl, writable, by
          simp [memWrite, phase, h0, h1, h2, h3, reg, writeDataWord, writable]⟩)))⟩

/-! ### The host and the step -/

/-- What a poll does while BUSY: it reads STATUS and stays. -/
theorem hostPoll_of_busy {s : State} (rest : List HostOp) (h : (memRead 0x01 s.engine).getLsbD 0 = true) :
    hostPoll rest s = hostRead 0x01 (.poll :: rest) s := if_pos h

/-- What a poll does while IDLE: it reads STATUS, records it as the script's status, and goes on. -/
theorem hostPoll_of_idle {s : State} (rest : List HostOp) (h : (memRead 0x01 s.engine).getLsbD 0 = false) :
    hostPoll rest s = hostRecord (.status (memRead 0x01 s.engine)) (hostRead 0x01 rest s) :=
  if_neg (by rw [h]; exact Bool.false_ne_true)

/-- A poll changes the host only. -/
theorem hostPoll_frame (rest : List HostOp) (s : State) :
    (hostPoll rest s).engine = s.engine ∧ (hostPoll rest s).schedule = s.schedule := by
  cases h : (memRead 0x01 s.engine).getLsbD 0
  · rw [hostPoll_of_idle rest h]; exact ⟨rfl, rfl⟩
  · rw [hostPoll_of_busy rest h]; exact ⟨rfl, rfl⟩

/-- A turn of the host does at most one write transaction to the engine, and takes no turn off the schedule. -/
theorem hostTurn_spec (s : State) :
    ((hostTurn s).engine = s.engine ∨ ∃ w v, (hostTurn s).engine = memWrite w v s.engine) ∧
      (hostTurn s).schedule = s.schedule := by
  unfold hostTurn
  split <;> (repeat' split) <;>
    first
      | exact ⟨.inl rfl, rfl⟩
      | exact ⟨.inr ⟨_, _, rfl⟩, rfl⟩
      | exact ⟨.inl (hostPoll_frame _ _).1, (hostPoll_frame _ _).2⟩

/-- The sum that `RD256` records is the value whose words were read. -/
theorem sumOfWords_getWord (v : Word256) :
    sumOfWords ((List.range Config.wordsPerRegister).map (getWord v)) = v.toNat := by
  show sumOfWords [getWord v 0, getWord v 1, getWord v 2, getWord v 3, getWord v 4, getWord v 5, getWord v 6, getWord v 7] = _
  have bound := v.isLt
  simp only [sumOfWords, getWord_toNat]
  omega

/-- With the eight words of v as the newest records, word 7 the newest, the value read is v. -/
theorem valueRead_words (w : Nat → WordAddr) (v : Word256) (past : List HostRecord) :
    valueRead (((List.range Config.wordsPerRegister).map fun j => HostRecord.word (w j) (getWord v j)).reverse ++ past) = v := by
  have eight : ((List.range Config.wordsPerRegister).map fun j => HostRecord.word (w j) (getWord v j)).reverse.length =
      Config.wordsPerRegister := by simp
  rw [valueRead, List.take_left' eight, List.reverse_reverse, List.map_map]
  have words : HostRecord.wordOf ∘ (fun j => HostRecord.word (w j) (getWord v j)) = getWord v := rfl
  rw [words, sumOfWords_getWord]
  simp

/-- What `hostReadLast` does: one read transaction, recorded, and the sum recorded after it. -/
theorem hostReadLast_spec (reg : DataReg) (rest : List HostOp) (s : State) :
    (hostReadLast reg rest s).engine = s.engine ∧ (hostReadLast reg rest s).schedule = s.schedule ∧
      (hostReadLast reg rest s).host.script = rest ∧
      ∃ v, (hostReadLast reg rest s).host.recorded =
        .value reg v :: .word (wordAddr reg 7) (memRead (wordAddr reg 7) s.engine) :: s.host.recorded :=
  ⟨rfl, rfl, rfl, _, rfl⟩

theorem fetchCommand_idle {e : Engine} (h : e.phase = .idle) : fetchCommand e = .noCommand := by
  simp [fetchCommand, h]

theorem fetchCommand_legal {e : Engine} {i : Instr} (h : e.phase = .busy) (hd : decode e.cmd = .ok i) :
    fetchCommand e = .legal i := by
  simp [fetchCommand, h, hd]

theorem fetchCommand_illegal {e : Engine} {why : IllegalReason} (h : e.phase = .busy)
    (hd : decode e.cmd = .error why) : fetchCommand e = .illegal why := by
  simp [fetchCommand, h, hd]

/-- What one step can do. -/
theorem step_cases {s t : State} (h : step s = .next t) :
    (nextTurn s = .host ∧ t = hostTurn (takeTurn s)) ∨
    (nextTurn s = .reset ∧ t = resetEngine (takeTurn s)) ∨
    (nextTurn s = .engine ∧ s.engine.phase = .idle ∧ t = takeTurn s) ∨
    (nextTurn s = .engine ∧ s.engine.phase = .busy ∧ ∃ r, t = { takeTurn s with engine := complete r s.engine }) := by
  unfold step at h
  split at h
  · next turn => exact .inl ⟨turn, by simpa using h.symm⟩
  · next turn =>
    refine .inr (.inr ?_)
    unfold engineTurn at h
    cases phase : s.engine.phase with
    | idle =>
      rw [takeTurn_engine, fetchCommand_idle phase] at h
      exact .inl ⟨turn, rfl, by simpa using h.symm⟩
    | busy =>
      refine .inr ⟨turn, rfl, ?_⟩
      cases decoded : decode s.engine.cmd with
      | ok i =>
        rw [takeTurn_engine, fetchCommand_legal phase decoded] at h
        obtain ⟨r, hr⟩ := exec_is_finish i (takeTurn s)
        exact ⟨r, by simpa [hr] using h.symm⟩
      | error why =>
        rw [takeTurn_engine, fetchCommand_illegal phase decoded] at h
        exact ⟨.err .illegalCmd, by simpa [completeIllegal] using h.symm⟩
  · next turn => exact .inr (.inl ⟨turn, by simpa using h.symm⟩)

end Sys2Proof.Machine
end

