-- ==== Sys2Proof/Laws/PerInstr.lean ====
section
/-! SUPPORT. The family `Encodable`: of every command, that its encoding has well-formed fields and packs them without loss. -/

namespace Sys2Proof.Laws

/-- spec/30_encoding.md R90 to R92: the fields of the command are well-formed, and its word has exactly these fields. -/
def Encodable.Statement (i : Instr) : Prop :=
  (fieldsOfInstr i).wellFormed = true ∧ fieldsOfWord (encode i) = fieldsOfInstr i

theorem Encodable.identity : Encodable.Statement .identity := ⟨rfl, rfl⟩

theorem Encodable.add : Encodable.Statement .add := ⟨rfl, rfl⟩

theorem Encodable.double : Encodable.Statement .double := ⟨rfl, rfl⟩

theorem Encodable.mulscalar : Encodable.Statement .mulscalar := ⟨rfl, rfl⟩

theorem Encodable.mulgen : Encodable.Statement .mulgen := ⟨rfl, rfl⟩

theorem Encodable.invertP : Encodable.Statement .invertP := ⟨rfl, rfl⟩

theorem Encodable.invertN : Encodable.Statement .invertN := ⟨rfl, rfl⟩

theorem Encodable.invertM : Encodable.Statement .invertM := ⟨rfl, rfl⟩

theorem Encodable.moduloP : Encodable.Statement .moduloP := ⟨rfl, rfl⟩

theorem Encodable.moduloN : Encodable.Statement .moduloN := ⟨rfl, rfl⟩

theorem Encodable.moduloM : Encodable.Statement .moduloM := ⟨rfl, rfl⟩

theorem Encodable.mulmodP : Encodable.Statement .mulmodP := ⟨rfl, rfl⟩

theorem Encodable.mulmodN : Encodable.Statement .mulmodN := ⟨rfl, rfl⟩

theorem Encodable.mulmodM : Encodable.Statement .mulmodM := ⟨rfl, rfl⟩

theorem Encodable.montmulP : Encodable.Statement .montmulP := ⟨rfl, rfl⟩

theorem Encodable.montmulN : Encodable.Statement .montmulN := ⟨rfl, rfl⟩

theorem Encodable.montmulM : Encodable.Statement .montmulM := ⟨rfl, rfl⟩

end Sys2Proof.Laws
end

