-- ==== Sys2Proof/Tests/Slice0.lean ====
section
/-! SUPPORT. The model's own tests: decoding of words written out from spec/30_encoding.md R90 and R93, the smoke tests of
WellFormed, one or two single steps per command with values of spec/95_test_vectors.md, and for every statement with
hypotheses a witness that meets them all (`witness_<Name>`). -/

-- One declaration after another: the checker's threads each take a large stack.
set_option Elab.async false

namespace Sys2Proof.Tests

open Sys2Proof.Machine

/-! ### Decoding: OP in bits 3:0, MSEL in bits 5:4 (R90), the words bit by bit -/

theorem test_decode_identity : decode 0b00000000000000000000000000000001#32 = .ok .identity := by decide
theorem test_decode_add : decode 0b00000000000000000000000000000010#32 = .ok .add := by decide
theorem test_decode_double : decode 0b00000000000000000000000000000011#32 = .ok .double := by decide
theorem test_decode_mulscalar : decode 0b00000000000000000000000000000100#32 = .ok .mulscalar := by decide
theorem test_decode_mulgen : decode 0b00000000000000000000000000000101#32 = .ok .mulgen := by decide
theorem test_decode_invertP : decode 0b00000000000000000000000000000110#32 = .ok .invertP := by decide
theorem test_decode_invertN : decode 0b00000000000000000000000000010110#32 = .ok .invertN := by decide
theorem test_decode_invertM : decode 0b00000000000000000000000000100110#32 = .ok .invertM := by decide
theorem test_decode_moduloP : decode 0b00000000000000000000000000000111#32 = .ok .moduloP := by decide
theorem test_decode_moduloN : decode 0b00000000000000000000000000010111#32 = .ok .moduloN := by decide
theorem test_decode_moduloM : decode 0b00000000000000000000000000100111#32 = .ok .moduloM := by decide
theorem test_decode_mulmodP : decode 0b00000000000000000000000000001000#32 = .ok .mulmodP := by decide
theorem test_decode_mulmodN : decode 0b00000000000000000000000000011000#32 = .ok .mulmodN := by decide
theorem test_decode_mulmodM : decode 0b00000000000000000000000000101000#32 = .ok .mulmodM := by decide
theorem test_decode_montmulP : decode 0b00000000000000000000000000001001#32 = .ok .montmulP := by decide
theorem test_decode_montmulN : decode 0b00000000000000000000000000011001#32 = .ok .montmulN := by decide
theorem test_decode_montmulM : decode 0b00000000000000000000000000101001#32 = .ok .montmulM := by decide

/-- Words of V106, one per reason. -/
theorem test_decode_rejects_by_name :
    decode 0x00000000 = .error .noSuchOperation ∧ decode 0x0000000a = .error .noSuchOperation ∧
    decode 0x00000012 = .error .mselOnPointOperation ∧ decode 0x00000036 = .error .mselReserved ∧
    decode 0x00000041 = .error .zeroFieldSet ∧ decode 0x80000001 = .error .zeroFieldSet := by decide

theorem test_decodeTableWord : decodeTableWord 32 0x29 = some .montmulM ∧ decodeTableWord 32 0x39 = none := by decide

/-! ### WellFormed: each check refuses an ill-formed term -/

theorem test_wellFormed_accepts : (⟨0x9, 2, 0⟩ : CommandFields).wellFormed = true := by decide
theorem test_wellFormed_refuses_zero_field : (⟨0x1, 0, 1⟩ : CommandFields).wellFormed = false := by decide
theorem test_wellFormed_refuses_op_0 : (⟨0x0, 0, 0⟩ : CommandFields).wellFormed = false := by decide
theorem test_wellFormed_refuses_op_a : (⟨0xA, 0, 0⟩ : CommandFields).wellFormed = false := by decide
theorem test_wellFormed_refuses_msel_on_point : (⟨0x5, 1, 0⟩ : CommandFields).wellFormed = false := by decide
theorem test_wellFormed_refuses_msel_3 : (⟨0x6, 3, 0⟩ : CommandFields).wellFormed = false := by decide
theorem test_wellFormed_refuses_wr256_of_result : (HostLine.wr256 .rx 1).wellFormed = false := by decide
theorem test_wellFormed_refuses_mov256_to_constant : (HostLine.mov256 .cp .px).wellFormed = false := by decide

/-! ### Helpers -/

/-- The engine e with the command i in flight and the engine to move next. -/
def running (i : Instr) (e : Engine) : State := { State.reset with engine := startStep (encode i) e }

/-- The engine with the given field operands, nothing in flight. -/
def operands (a b m : Word256) : State := { State.reset with engine := { Engine.reset with a := a, b := b, m := m } }

/-- The engine after one step. -/
def after (s : State) : Option Engine :=
  match step s with
  | .next t => some t.engine
  | .fault _ | .refused _ => none

/-- STATUS and the result point after one step. -/
def pointAfter (i : Instr) (e : Engine) : Option (Word × Point) :=
  (after (running i e)).map fun e' => (memRead 0x01 e', ptR e')

/-- STATUS and S after one step, from an engine whose S held 9. -/
def scalarAfter (i : Instr) (a b m : Word256) : Option (Word × Word256) :=
  (after (running i { Engine.reset with a := a, b := b, m := m, s := 9 })).map fun e' => (memRead 0x01 e', e'.s)

/-- Affine operands in P and Q, a scalar in K, and R = Affine(8, 9) from an earlier command. -/
def points (x1 y1 x2 y2 k : Word256) : Engine :=
  { Engine.reset with
    pinf := false, qinf := false, rinf := false
    px := x1, py := y1, qx := x2, qy := y2, k := k, rx := 8, ry := 9 }

/-- A host that moves next and has one operation to perform. -/
def hostNext (e : Engine) (ops : List HostOp) : State := ⟨e, ⟨ops, []⟩, [.host]⟩

/-! ### One step per command (vectors of spec/95_test_vectors.md) -/

/-- V22. -/
theorem test_identity : pointAfter .identity (points 1 2 3 4 0) = some (0x2, .infinity) := by decide +kernel
/-- V23. -/
theorem test_add_chord : pointAfter .add (points 1 2 3 4 0) = some (0x2, .affine (primeP - 3) 2) := by decide +kernel
/-- V29: the doubling test comes before the test for inverse points. -/
theorem test_add_fails_before_inverse : pointAfter .add (points 5 0 5 0 0) = some (0x12, .affine 8 9) := by
  decide +kernel
/-- V30. -/
theorem test_double : pointAfter .double (points 1 1 0 0 0) = some (0x2,
    .affine 0x3fffffffffffffffffffffffffffffffffffffffffffffffffffffffbfffff0c
      0x1fffffffffffffffffffffffffffffffffffffffffffffffffffffffdfffff86) := by decide +kernel
/-- V28: y1 = p. -/
theorem test_double_fails : pointAfter .double (points 5 curveP 0 0 0) = some (0x12, .affine 8 9) := by decide +kernel
/-- V40. -/
theorem test_mulscalar : pointAfter .mulscalar (points 1 2 0 0 2) = some (0x2,
    .affine 0x8fffffffffffffffffffffffffffffffffffffffffffffffffffffff6ffffdd9
      0x93ffffffffffffffffffffffffffffffffffffffffffffffffffffff6bfffdcb) := by decide +kernel
/-- V36: the doubling of the last iteration is done. -/
theorem test_mulscalar_last_doubling : pointAfter .mulscalar (points 5 0 0 0 1) = some (0x12, .affine 8 9) := by
  decide +kernel
/-- V10 row 3. -/
theorem test_mulgen : pointAfter .mulgen (points 5 0 0 0 3) = some (0x2,
    .affine 0xf9308a019258c31049344f85f89d5229b531c845836f99b08601f113bce036f9
      0x388f7b0f632de8140fe337e62a37f3566500a99934c2231b6cb9fd7584b8e672) := by decide +kernel
/-- V53. -/
theorem test_invertP : scalarAfter .invertP 2 0 0 =
    some (0x2, 0x7fffffffffffffffffffffffffffffffffffffffffffffffffffffff7ffffe18) := by decide +kernel
/-- V65. -/
theorem test_invertP_fails : scalarAfter .invertP curveP 0 0 = some (0x12, 9) := by decide +kernel
/-- V59. -/
theorem test_invertN : scalarAfter .invertN 2 0 0 =
    some (0x2, 0x7fffffffffffffffffffffffffffffff5d576e7357a4501ddfe92f46681b20a1) := by decide +kernel
/-- V62. -/
theorem test_invertM : scalarAfter .invertM 10 0 7 = some (0x2, 5) := by decide +kernel
/-- V68. -/
theorem test_invertM_fails : scalarAfter .invertM 6 0 9 = some (0x12, 9) := by decide +kernel
/-- V72. -/
theorem test_moduloP : scalarAfter .moduloP (BitVec.allOnes 256) 0 0 = some (0x2, 0x1000003d0) := by decide +kernel
/-- V73. -/
theorem test_moduloN : scalarAfter .moduloN (BitVec.allOnes 256) 0 0 =
    some (0x2, 0x14551231950b75fc4402da1732fc9bebe) := by decide +kernel
/-- V79. -/
theorem test_moduloM : scalarAfter .moduloM 7 0 5 = some (0x2, 2) := by decide +kernel
/-- V82. -/
theorem test_moduloM_fails : scalarAfter .moduloM 7 0 0 = some (0x12, 9) := by decide +kernel
/-- V86. -/
theorem test_mulmodP : scalarAfter .mulmodP (BitVec.allOnes 256) (BitVec.allOnes 256) 0 =
    some (0x2, 0x1000007a0000e8900) := by decide +kernel
/-- V84. -/
theorem test_mulmodN : scalarAfter .mulmodN curveGX curveGY 0 =
    some (0x2, 0x805714a252d0c0b58910907e85b5b801fff610a36bdf46847a4bf5d9ae2d10ed) := by decide +kernel
/-- V89. -/
theorem test_mulmodM : scalarAfter .mulmodM 3 5 7 = some (0x2, 1) := by decide +kernel
/-- V91. -/
theorem test_mulmodM_fails : scalarAfter .mulmodM 3 5 0 = some (0x12, 9) := by decide +kernel
/-- V93. -/
theorem test_montmulP : scalarAfter .montmulP curveGX curveGY 0 =
    some (0x2, 0xac8c2a517a504435fa970efa4296371caff3c5def0dc22d4a7b254f5aab574c8) := by decide +kernel
/-- V100. -/
theorem test_montmulN : scalarAfter .montmulN curveGX curveGY 0 =
    some (0x2, 0xa0e895f0a561f7749de8ca1f3d078c95edab56a6c516a75f2478f2ed57f5fe5f) := by decide +kernel
/-- V101. -/
theorem test_montmulM : scalarAfter .montmulM 3 5 7 = some (0x2, 4) := by decide +kernel
/-- V102. -/
theorem test_montmulM_fails : scalarAfter .montmulM 3 5 8 = some (0x12, 9) := by decide +kernel

/-! ### Illegal words, the port, the host, reset -/

/-- R97 `RD256`, R64's example: "the value 7 in B is word 0x48 = 0x00000007 and words 0x49 to 0x4F = 0". -/
theorem test_rd256_records_sum :
    ((hostTurn ⟨{ Engine.reset with b := 7 },
      ⟨[.readLast .b], [.word 0x4E 0, .word 0x4D 0, .word 0x4C 0, .word 0x4B 0, .word 0x4A 0, .word 0x49 0, .word 0x48 7]⟩,
      []⟩).host.recorded.take 2) = [.value .b 7, .word 0x4F 0] := by decide +kernel

/-- R97 `WAIT`: an IDLE engine's STATUS is the script's status. -/
theorem test_wait_records_status :
    (hostTurn (hostNext Engine.reset [.poll])).host = ⟨[], [.status 0, .word 0x01 0]⟩ := by decide +kernel

/-- V106. -/
theorem test_illegal_word : (after (State.reset.withFetchWord 32 0x36)).map
    (fun e => (memRead 0x00 e, memRead 0x01 e, memRead 0x03 e)) = some (0x36, 0x22, 0x7) := by decide +kernel
/-- V105: two words run as the first command after reset. -/
theorem test_first_command : (after (State.reset.withFetchWord 32 0x3)).map (memRead 0x01) = some 0x2 ∧
    (after (State.reset.withFetchWord 32 0x6)).map (memRead 0x01) = some 0x12 := by decide +kernel
/-- V118: RINF is not writable. -/
theorem test_ptflags : memRead 0x03 (memWrite 0x03 0x0 Engine.reset) = 0x4 ∧
    memRead 0x03 (memWrite 0x03 0x1 Engine.reset) = 0x5 := by decide
/-- V119. -/
theorem test_ctrl : memRead 0x02 (memWrite 0x02 0xfffffffe Engine.reset) = 0x0 ∧
    memRead 0x02 (memWrite 0x02 0xffffffff Engine.reset) = 0x1 := by decide
/-- V112: a host write clears DONE and keeps ERR. -/
theorem test_status : memRead 0x01 (memWrite 0x01 0xffffffff (errorCompletion .illegalCmd Engine.reset)) = 0x20 ∧
    memRead 0x01 (memWrite 0x01 0xfffffffd (errorCompletion .illegalCmd Engine.reset)) = 0x22 := by decide
/-- V120. -/
theorem test_word_write : (memWrite 0x3a 0xaabbccdd Engine.reset).k = 0xaabbccdd0000000000000000 := by decide +kernel
/-- V115. -/
theorem test_constants : memRead 0x60 Engine.reset = 0xfffffc2f ∧ memRead 0x6b Engine.reset = 0xbaaedce6 ∧
    memRead 0x87 Engine.reset = 0x79be667e ∧ memRead 0x88 Engine.reset = 0xfb10d4b8 := by decide +kernel
/-- V116, V117. -/
theorem test_reserved_and_read_only : memRead 0xff Engine.reset = 0 ∧ memWrite 0x04 1 Engine.reset = Engine.reset ∧
    memWrite 0x28 1 Engine.reset = Engine.reset ∧ memWrite 0x60 1 Engine.reset = Engine.reset := by decide +kernel
/-- V121. -/
theorem test_write_while_busy :
    after (hostNext (startStep 0x6 Engine.reset) [.write 0x40 5]) = some (startStep 0x6 Engine.reset) := by
  decide +kernel
/-- V122. -/
theorem test_reset_while_busy :
    after { running .mulgen (points 1 2 3 4 5) with schedule := [.reset] } = some Engine.reset := by decide +kernel
/-- V113. -/
theorem test_irq : (after (running .identity { Engine.reset with ie := true })).map irq = some true ∧
    irq (startStep 0x1 { Engine.reset with ie := true, done := true }) = false := by decide +kernel

/-! ### Witnesses: for each statement with hypotheses, a state and operands that meet them all -/

/-- One word per clause of the rule, at the ends of its ranges. -/
theorem witness_DecodingRule :
    (∀ c ∈ ([0x40, 0xffffffff] : List Word), c.toNat / 64 ≠ 0) ∧
    (∀ c ∈ ([0x0, 0xa, 0xf, 0x3f] : List Word), c.toNat / 64 = 0 ∧ (c.toNat % 16 = 0 ∨ 10 ≤ c.toNat % 16)) ∧
    (∀ c ∈ ([0x11, 0x35] : List Word), c.toNat / 64 = 0 ∧ (1 ≤ c.toNat % 16 ∧ c.toNat % 16 ≤ 5) ∧ c.toNat / 16 % 4 ≠ 0) ∧
    (∀ c ∈ ([0x36, 0x39] : List Word), c.toNat / 64 = 0 ∧ (6 ≤ c.toNat % 16 ∧ c.toNat % 16 ≤ 9) ∧ c.toNat / 16 % 4 = 3) ∧
    (∀ c ∈ ([0x1, 0x5] : List Word), c.toNat / 64 = 0 ∧ (1 ≤ c.toNat % 16 ∧ c.toNat % 16 ≤ 5) ∧ c.toNat / 16 % 4 = 0) ∧
    (∀ c ∈ ([0x6, 0x29] : List Word), c.toNat / 64 = 0 ∧ (6 ≤ c.toNat % 16 ∧ c.toNat % 16 ≤ 9) ∧ c.toNat / 16 % 4 ≠ 3) := by
  simp

theorem witness_StepRunsTheDecodedCommand : ∃ s i,
    nextTurn s = .engine ∧ s.engine.phase = .busy ∧ decode s.engine.cmd = .ok i :=
  ⟨running .add Engine.reset, .add, by decide⟩

/-- The two words at a boundary of the legal ones: 0x1 is legal, 0x0 is not. -/
theorem witness_IllegalWordCompletes :
    (nextTurn (State.reset.withFetchWord 32 0x0) = .engine ∧ (State.reset.withFetchWord 32 0x0).engine.phase = .busy) ∧
    (nextTurn (State.reset.withFetchWord 32 0x1) = .engine ∧ (State.reset.withFetchWord 32 0x1).engine.phase = .busy) := by
  decide

theorem witness_IdleEngineWaits : ∃ s, nextTurn s = .engine ∧ s.engine.phase = .idle :=
  ⟨{ State.reset with schedule := [.engine] }, by decide⟩

theorem witness_ResetEventFromEveryState : ∃ s, nextTurn s = .reset ∧ s.engine.phase = .busy :=
  ⟨{ running .mulgen Engine.reset with schedule := [.reset] }, by decide⟩

theorem witness_InvariantKeptByEveryStep : ∃ s t, Inv s ∧ step s = .next t :=
  ⟨running .identity Engine.reset, _, by decide, rfl⟩

theorem witness_OperandsKeptByTheEngine : ∃ s t, nextTurn s = .engine ∧ step s = .next t :=
  ⟨running .identity (points 1 2 3 4 5), _, by decide, rfl⟩

theorem witness_HostNeverWritesResults : ∃ s t, nextTurn s = .host ∧ step s = .next t :=
  ⟨hostNext Engine.reset [.write 0x28 1], _, by decide, rfl⟩

theorem witness_BusyEngineIgnoresTheHost : ∃ s, s.engine.phase = .busy ∧ nextTurn s = .host ∧ s.host.script ≠ [] :=
  ⟨hostNext (startStep 0x6 Engine.reset) [.write 0x40 5], by decide⟩

/-- Both clauses: a completion, and a start. -/
theorem witness_PhaseChangesOnlyByStartCompletionOrReset :
    (∃ s t, step s = .next t ∧ s.engine.phase = .busy ∧ t.engine.phase = .idle) ∧
    (∃ s t, step s = .next t ∧ s.engine.phase = .idle ∧ t.engine.phase = .busy) :=
  ⟨⟨running .identity Engine.reset, _, rfl, by decide⟩, ⟨hostNext Engine.reset [.write 0x00 0x1], _, rfl, by decide⟩⟩

theorem witness_CompletionIndependentOfLatency : ∃ s : State, s.engine.phase = .busy ∧ s.host.script ≠ [] :=
  ⟨hostNext (startStep 0x6 Engine.reset) [.write 0x40 5], by decide⟩

theorem witness_WaitTerminates : ∃ (s : State) (rest : List HostOp), s.host.script = .poll :: rest ∧ s.engine.phase = .busy :=
  ⟨hostNext (startStep 0x6 Engine.reset) [.poll], [], by decide⟩

theorem witness_CommandLineStartsAndRuns : ∃ (s : State) (i : Instr) (rest : List HostOp) (turns : List Turn),
    s.engine.phase = .idle ∧ s.host.script = expandLine (.cmd i) ++ rest ∧ s.schedule = Turn.host :: Turn.engine :: turns :=
  ⟨⟨Engine.reset, ⟨[.write 0x00 0x2], []⟩, [.host, .engine]⟩, .add, [], [], by decide⟩

/-- The clauses of the read map at their boundary addresses, a host that reads, in either phase, and an IDLE engine. -/
theorem witness_ReadTransaction :
    ((0x08 : WordAddr).toNat = 8 * regNumber .px + 0 ∧ (0x97 : WordAddr).toNat = 8 * regNumber .ch + 7) ∧
    (∀ w ∈ ([0x04, 0x07] : List WordAddr), 4 ≤ w.toNat ∧ w.toNat ≤ 7) ∧
    (∀ w ∈ ([0x98, 0xff] : List WordAddr), 0x98 ≤ w.toNat) ∧
    (nextTurn (hostNext Engine.reset [.read 0x60]) = .host ∧ Engine.reset.phase = .idle) ∧
    (nextTurn (hostNext (startStep 0x6 Engine.reset) [.read 0x60]) = .host ∧ (startStep 0x6 Engine.reset).phase = .busy) := by
  decide

/-- The clauses of the write map at their boundary addresses; IDLE and BUSY engines. -/
theorem witness_WriteTransaction :
    (∀ w ∈ ([0x08, 0x27] : List WordAddr), 0x08 ≤ w.toNat ∧ w.toNat ≤ 0x27) ∧
    (∀ w ∈ ([0x38, 0x57] : List WordAddr), 0x38 ≤ w.toNat ∧ w.toNat ≤ 0x57) ∧
    (∀ w ∈ ([0x04, 0x07] : List WordAddr), 0x04 ≤ w.toNat ∧ w.toNat ≤ 0x07) ∧
    (∀ w ∈ ([0x28, 0x37] : List WordAddr), 0x28 ≤ w.toNat ∧ w.toNat ≤ 0x37) ∧
    (∀ w ∈ ([0x58, 0xff] : List WordAddr), 0x58 ≤ w.toNat) ∧
    Engine.reset.phase = .idle ∧ (startStep 0 Engine.reset).phase = .busy ∧
    nextTurn (hostNext Engine.reset [.write 0x08 1]) = .host := by decide

theorem witness_IrqFollowsCompletion : Engine.reset.phase = .idle ∧ (0x2 : Word).getLsbD 1 = true := by decide

theorem witness_ConstantsReadTheirValues : ∃ base value : Nat,
    (base, value) ∈ ([(0x60, 2 ^ 256 - 2 ^ 32 - 977), (0x70, 0), (0x78, 7), (0x90, 1)] : List (Nat × Nat)) ∧ value ≠ 0 :=
  ⟨0x78, 7, by decide +kernel⟩

theorem witness_WriteRegisterScript : ∃ (s : State) (reg : DataReg) (v : Word256) (rest : List HostOp),
    s.engine.phase = .idle ∧ s.schedule = [] ∧ (HostLine.wr256 reg v).wellFormed = true ∧
    s.host.script = expandLine (.wr256 reg v) ++ rest :=
  ⟨loadScript [.wr256 .m 5, .ack] State.reset, .m, 5, [.write 0x01 2], by decide⟩

/-- Both clauses: a reading script, and a moving one. -/
theorem witness_MoveRegisterScript :
    (∃ (s : State) (src : DataReg) (rest : List HostOp),
      s.engine.phase = .idle ∧ s.schedule = [] ∧ s.host.script = expandLine (.rd256 src) ++ rest) ∧
    ∃ (s : State) (dst src : DataReg) (rest : List HostOp),
    s.engine.phase = .idle ∧ s.schedule = [] ∧ (HostLine.mov256 dst src).wellFormed = true ∧
    s.host.script = expandLine (.mov256 dst src) ++ rest :=
  ⟨⟨loadScript [.rd256 .cn] State.reset, .cn, [], by decide⟩,
   loadScript [.mov256 .px .cgx] State.reset, .px, .cgx, [], by decide⟩

theorem witness_MovePointScript : ∃ (s : State) (rest : List HostOp),
    s.engine.phase = .idle ∧ s.schedule = [] ∧ s.host.script = expandLine .movpt ++ rest :=
  ⟨loadScript [.movpt] State.reset, [], by decide⟩

/-- Each hypothesis of the identity law alone, the other operand affine, and both together. -/
theorem witness_AddIdentityLaw :
    (({ points 1 2 3 4 0 with qinf := true }).qinf = true ∧ ({ points 1 2 3 4 0 with qinf := true }).pinf = false) ∧
    (({ points 1 2 3 4 0 with pinf := true }).pinf = true ∧ ({ points 1 2 3 4 0 with pinf := true }).qinf = false) ∧
    (Engine.reset.pinf = true ∧ Engine.reset.qinf = true) := by decide

/-- The operands of V25. -/
theorem witness_AddOfOppositePoints : ∃ e : Engine, e.pinf = false ∧ e.qinf = false ∧ e.px = e.qx ∧ e.py ≠ e.qy ∧
    ((e.py.toNat : Int) + e.qy.toNat) % primeP = 0 :=
  ⟨points 1 2 1 (curveP - 2) 0, by decide +kernel⟩

/-- The operands of V23, with slope 1. -/
theorem witness_AddByTheChord : ∃ (e : Engine) (x1 y1 x2 y2 lam : Int), e.pinf = false ∧ e.qinf = false ∧
    x1 = e.px.toNat ∧ y1 = e.py.toNat ∧ x2 = e.qx.toNat ∧ y2 = e.qy.toNat ∧ x1 ≠ x2 ∧
    Int.gcd (x2 - x1) primeP = 1 ∧ 0 ≤ lam ∧ lam < primeP ∧ (lam * (x2 - x1) - (y2 - y1)) % primeP = 0 :=
  ⟨points 1 2 3 4 0, 1, 2, 3, 4, 1, by decide +kernel⟩

/-- The operand of V30, with its slope. -/
theorem witness_DoubleByTheTangent : Engine.reset.pinf = true ∧
    ∃ (e : Engine) (x1 y1 lam : Int), e.pinf = false ∧ x1 = e.px.toNat ∧ y1 = e.py.toNat ∧
      Int.gcd (2 * y1) primeP = 1 ∧ 0 ≤ lam ∧ lam < primeP ∧ (lam * (2 * y1) - 3 * x1 * x1) % primeP = 0 :=
  ⟨rfl, points 1 1 0 0 0, 1, 1, 0x7fffffffffffffffffffffffffffffffffffffffffffffffffffffff7ffffe19, by decide +kernel⟩

/-- A state on each side of ADD's failure condition, one per way to fail. -/
theorem witness_AddFailsExactly :
    (pointAfter .add (points 5 0 5 0 0)).map Prod.fst = some 0x12 ∧
    (pointAfter .add (points 1 2 1 3 0)).map Prod.fst = some 0x12 ∧
    (pointAfter .add (points 1 2 (curveP + 1) 5 0)).map Prod.fst = some 0x12 ∧
    (pointAfter .add (points 1 2 3 4 0)).map Prod.fst = some 0x2 := by decide +kernel

theorem witness_DoubleFailsExactly :
    (pointAfter .double (points 5 0 0 0 0)).map Prod.fst = some 0x12 ∧
    (pointAfter .double (points 5 curveP 0 0 0)).map Prod.fst = some 0x12 ∧
    (pointAfter .double (points 5 1 0 0 0)).map Prod.fst = some 0x2 := by decide +kernel

theorem witness_AddOfEqualOperandsIsDouble : ∃ e : Engine, e.pinf = e.qinf ∧ e.px = e.qx ∧ e.py = e.qy ∧ e.px ≠ 0 :=
  ⟨points 5 1 5 1 0, by decide⟩

/-- G and -G are on the curve; so is the identity. -/
theorem witness_ValidOperandsNeverFail :
    onCurve (ptP (points curveGX curveGY curveGX (curveP - curveGY) 0)) = true ∧
    onCurve (ptQ (points curveGX curveGY curveGX (curveP - curveGY) 0)) = true := by decide +kernel

theorem witness_AddCommutesOnTheCurve : ∃ P Q : Point, onCurve P = true ∧ onCurve Q = true ∧ P ≠ Q :=
  ⟨generator, .affine curveGX.toNat (primeP - curveGY.toNat), by decide +kernel⟩

theorem witness_AddAssociatesOnTheCurve : ∃ P Q R : Point, onCurve P = true ∧ onCurve Q = true ∧ onCurve R = true ∧ P ≠ Q :=
  ⟨generator, .affine curveGX.toNat (primeP - curveGY.toNat), generator, by decide +kernel⟩

theorem witness_OperationCounts : ∃ P k v, mulscalar P k = some v ∧ k = 3 :=
  ⟨.infinity, 3, .infinity, by decide +kernel⟩

/-- An operand off the curve on which K = 3 completes and one on which it fails; K = 0, K = 1 with a doubling that succeeds, K = 1 with one that fails (both of its values of PY), and the identity. -/
theorem witness_MulscalarCornerCases :
    ((mulscalar (ptP (points 1 1 0 0 3)) 3).isSome = true ∧ onCurve (ptP (points 1 1 0 0 3)) = false) ∧
    (mulscalar (ptP (points 5 0 0 0 3)) 3 = none) ∧
    ((points 5 0 0 0 0).k = 0 ∧ Engine.reset.pinf = true) ∧
    ((points 5 1 0 0 1).k = 1 ∧ (points 5 1 0 0 1).pinf = false ∧ (points 5 1 0 0 1).py ≠ 0 ∧ (points 5 1 0 0 1).py ≠ curveP) ∧
    ((points 5 0 0 0 1).py = 0 ∧ (points 5 curveP 0 0 1).py = curveP) := by decide +kernel

theorem witness_MulgenIsMulscalarOfG : ∃ e : Engine, e.pinf = false ∧ e.px = curveGX ∧ e.py = curveGY :=
  ⟨points curveGX curveGY 0 0 3, by decide⟩

theorem witness_ScalarMultiplicationNeverFailsOnTheCurve : ∃ e : Engine, onCurve (ptP e) = true ∧ e.pinf = false :=
  ⟨points curveGX curveGY 0 0 3, by decide +kernel⟩

theorem witness_MulscalarIsRepeatedAddition : ∃ (P : Point) (k : Nat), onCurve P = true ∧ k < 2 ^ 256 ∧ P ≠ .infinity ∧ k ≠ 0 :=
  ⟨generator, 2 ^ 256 - 1, by decide +kernel⟩

/-- Both clauses: a sum that fits, and two reduced scalars whose sum does not fit 256 bits. -/
theorem witness_MulscalarOfASum :
    (∃ (P : Point) (a b : Nat), onCurve P = true ∧ a + b < 2 ^ 256 ∧ P ≠ .infinity ∧ a ≠ 0 ∧ b ≠ 0) ∧
    (∃ (P : Point) (a b : Nat), onCurve P = true ∧ a < curveN.toNat ∧ b < curveN.toNat ∧ P ≠ .infinity ∧ 2 ^ 256 ≤ a + b) :=
  ⟨⟨generator, 2, 3, by decide +kernel⟩, ⟨generator, curveN.toNat - 1, curveN.toNat - 1, by decide +kernel⟩⟩

theorem witness_UnreducedScalar : ∃ (P : Point) (k : Nat), onCurve P = true ∧ k < 2 ^ 256 ∧ curveN.toNat ≤ k ∧ P ≠ .infinity :=
  ⟨generator, 0xFFFFFFFFFFFFFFFFFFFFFFFFFFFFFFFFFFFFFFFFFFFFFFFFFFFFFFFFFFFFFFFF, by decide +kernel⟩

theorem witness_ModuloIsTheEuclideanRemainder : ∃ a m r : Int, 0 < m ∧ 0 ≤ r ∧ r < m ∧ m ∣ a - r ∧ a < 0 :=
  ⟨-7, 5, 3, by decide⟩

/-- V52: an inverse, and the same inverse as the candidate r'. -/
theorem witness_InvertIsTheModularInverse : ∃ a m r r' : Int,
    invert a m = some r ∧ 1 ≤ r' ∧ r' ≤ m - 1 ∧ modulo (a * r') m = 1 ∧ a < 0 :=
  ⟨-3, 7, 2, 2, by decide +kernel⟩

/-- Both clauses: gcd(3, 10) = 1; m = 0, m = 1 and gcd(6, 9) = 3. -/
theorem witness_InvertCommands :
    (∃ (s : State) (i : Instr) (m : Int),
      (i, m) ∈ ([(.invertP, primeP), (.invertN, orderN), (.invertM, (s.engine.m.toNat : Int))] : List (Instr × Int)) ∧
      1 < m ∧ Int.gcd s.engine.a.toNat m = 1) ∧
    (∀ am ∈ ([(3, 0), (3, 1), (6, 9)] : List (Word256 × Word256)),
      (Instr.invertM, (am.2.toNat : Int)) ∈ ([(.invertP, primeP), (.invertN, orderN),
        (.invertM, ((operands am.1 0 am.2).engine.m.toNat : Int))] : List (Instr × Int)) ∧
      ((am.2.toNat : Int) = 0 ∨ (am.2.toNat : Int) = 1 ∨ Int.gcd am.1.toNat am.2.toNat ≠ 1)) :=
  ⟨⟨operands 3 0 10, .invertM, 10, by simp [operands], by decide, by decide⟩, fun am h =>
    ⟨by simp [operands], by
      simp only [List.mem_cons, List.not_mem_nil, or_false] at h
      obtain rfl | rfl | rfl := h <;> decide⟩⟩

/-- Both clauses: m = 1 and m = 0. -/
theorem witness_ModuloCommands : ∀ v ∈ ([1, 0] : List Word256), ∃ (s : State) (i : Instr) (m : Int),
    (i, m) ∈ ([(.moduloP, primeP), (.moduloN, orderN), (.moduloM, (s.engine.m.toNat : Int))] : List (Instr × Int)) ∧
    m = v.toNat ∧ s.engine.a = 5 :=
  fun v _ => ⟨operands 5 0 v, .moduloM, v.toNat, by simp [operands]⟩

/-- Both clauses: m = 1 and m = 0. -/
theorem witness_MulmodCommands : ∀ v ∈ ([1, 0] : List Word256), ∃ (s : State) (i : Instr) (m : Int),
    (i, m) ∈ ([(.mulmodP, primeP), (.mulmodN, orderN), (.mulmodM, (s.engine.m.toNat : Int))] : List (Instr × Int)) ∧
    m = v.toNat ∧ s.engine.a = 5 :=
  fun v _ => ⟨operands 5 0 v, .mulmodM, v.toNat, by simp [operands]⟩

/-- Both clauses: p and 3 are odd and above 1; 0, 1 and 8 are refused. -/
theorem witness_MontmulCommands :
    (∃ (s : State) (i : Instr) (m : Int),
      (i, m) ∈ ([(.montmulP, primeP), (.montmulN, orderN), (.montmulM, (s.engine.m.toNat : Int))] : List (Instr × Int)) ∧
      1 < m ∧ m % 2 = 1) ∧
    (∀ v ∈ ([0, 1, 8] : List Word256),
      (Instr.montmulM, (v.toNat : Int)) ∈ ([(.montmulP, primeP), (.montmulN, orderN),
        (.montmulM, ((operands 5 6 v).engine.m.toNat : Int))] : List (Instr × Int)) ∧
      ((v.toNat : Int) ≤ 1 ∨ (v.toNat : Int) % 2 = 0)) :=
  ⟨⟨operands 5 6 3, .montmulM, 3, by simp [operands], by decide, by decide⟩, fun v h =>
    ⟨by simp [operands], by
      simp only [List.mem_cons, List.not_mem_nil, or_false] at h
      obtain rfl | rfl | rfl := h <;> decide⟩⟩

/-- A member of each list of the summary. -/
theorem witness_FieldFailureSummary :
    (Instr.invertP, primeP) ∈ ([(.invertP, primeP), (.invertN, orderN)] : List (Instr × Int)) ∧
    (Instr.mulmodN, orderN) ∈ ([(.moduloP, primeP), (.mulmodN, orderN)] : List (Instr × Int)) ∧
    (Instr.montmulP, primeP) ∈ ([(.montmulP, primeP), (.montmulN, orderN)] : List (Instr × Int)) ∧
    Instr.montmulN ∈ ([.moduloP, .moduloN, .mulmodP, .mulmodN, .montmulP, .montmulN] : List Instr) := by
  simp

theorem witness_InverseTimesOperandIsOne : ∃ s t i j,
    (i, j) ∈ ([(.invertP, .mulmodP), (.invertN, .mulmodN), (.invertM, .mulmodM)] : List (Instr × Instr)) ∧
    exec i s = .next t ∧ t.engine.err = .none ∧ t.engine.s = 5 :=
  ⟨operands 3 0 7, _, .invertM, .mulmodM, by decide, rfl, by decide +kernel⟩

theorem witness_MontgomeryFormLaws : ∃ m : Int, 3 ≤ m ∧ m % 2 = 1 := ⟨3, by decide⟩

theorem witness_MontgomeryReductionAgrees : ∃ m a b : Int,
    3 ≤ m ∧ m < 2 ^ 256 ∧ m % 2 = 1 ∧ 0 ≤ a ∧ a < m ∧ 0 ≤ b ∧ b < m ∧ a ≠ 0 ∧ b ≠ 0 :=
  ⟨7, 3, 5, by decide⟩

/-- The clauses of the frame: a word outside the results, for a point command and for a field command. -/
theorem witness_CommandFrame :
    (Instr.add ∈ ([.identity, .add, .double, .mulscalar, .mulgen] : List Instr) ∧
      (0x02 : WordAddr) ≠ 0x01 ∧ (0x02 : WordAddr) ≠ 0x03 ∧ ¬ (0x28 ≤ (0x38 : WordAddr).toNat ∧ (0x38 : WordAddr).toNat ≤ 0x37)) ∧
    (Instr.invertP ∉ ([.identity, .add, .double, .mulscalar, .mulgen] : List Instr) ∧
      ¬ (0x58 ≤ (0x57 : WordAddr).toNat ∧ (0x57 : WordAddr).toNat ≤ 0x5F)) := by decide

theorem witness_ErrorChangesNothingElse : ∃ i s t, exec i s = .next t ∧ t.engine.err ≠ .none :=
  ⟨.invertP, State.reset, _, rfl, by decide +kernel⟩

/-- DOUBLE of one operand in two states that differ in Q, K, A, B, M and the old result; MULMOD.M in two states that differ in
the points and the scalar. -/
theorem witness_ResultDependsOnlyOnItsOperands :
    (∃ s s' t t',
      exec .double s = .next t ∧ exec .double s' = .next t' ∧ ptP s'.engine = ptP s.engine ∧ s'.engine ≠ s.engine ∧
      t.engine.err = .none) ∧
    (∃ s s' t t',
      exec .mulmodM s = .next t ∧ exec .mulmodM s' = .next t' ∧ s'.engine.a = s.engine.a ∧ s'.engine.b = s.engine.b ∧
      s'.engine.m = s.engine.m ∧ s'.engine ≠ s.engine ∧ t.engine.err = .none) :=
  ⟨⟨running .double (points 1 1 0 0 0), running .double { points 1 1 3 4 5 with a := 6, b := 7, m := 8, rx := 1 }, _, _,
    rfl, rfl, by decide +kernel⟩,
   ⟨operands 3 4 7, running .mulmodM { points 1 1 3 4 5 with a := 3, b := 4, m := 7, rx := 1 }, _, _,
    rfl, rfl, by decide +kernel⟩⟩

end Sys2Proof.Tests
end

section
/-! PROOFS. The family 10_state: the state, the agents' turns, reset, the constants (spec/10_state.md). First the rules about one
completion, one port write and one turn, each said once; then the statements. -/

namespace Sys2Proof.Proofs

open Sys2Proof.Machine

/-! ### The outcome of a command -/

/-- spec/30_encoding.md R92: what the evaluation of a command comes to, as a function of the engine it reads. -/
def outcome (i : Instr) (e : Engine) : Result :=
  match i with
  | .identity => .pt .infinity
  | .add => pointResult (add (ptP e) (ptQ e))
  | .double => pointResult (double (ptP e))
  | .mulscalar => pointResult (mulscalar (ptP e) (scalarK e))
  | .mulgen => pointResult (mulscalar generator (scalarK e))
  | .invertP => evalInvert .p e
  | .invertN => evalInvert .n e
  | .invertM => evalInvert .m e
  | .moduloP => evalModulo .p e
  | .moduloN => evalModulo .n e
  | .moduloM => evalModulo .m e
  | .mulmodP => evalMulmod .p e
  | .mulmodN => evalMulmod .n e
  | .mulmodM => evalMulmod .m e
  | .montmulP => evalMontmul .p e
  | .montmulN => evalMontmul .n e
  | .montmulM => evalMontmul .m e

theorem exec_eq_finish_outcome (i : Instr) (s : State) : exec i s = finish (outcome i s.engine) s := by
  cases i <;> rfl

/-- A command answers the one state in which its outcome is completed. -/
theorem exec_eq_next_iff {i : Instr} {s t : State} :
    exec i s = .next t ↔ t = { s with engine := complete (outcome i s.engine) s.engine } := by
  rw [exec_eq_finish_outcome, finish_eq, Host.Outcome.next.injEq, eq_comm]

/-- The commands that are no point commands are the twelve field commands. -/
theorem not_pointCommand_iff (i : Instr) :
    i ∉ ([.identity, .add, .double, .mulscalar, .mulgen] : List Instr) ↔
      i ∈ ([.invertP, .invertN, .invertM, .moduloP, .moduloN, .moduloM, .mulmodP, .mulmodN, .mulmodM,
        .montmulP, .montmulN, .montmulM] : List Instr) := by
  cases i <;> decide

theorem outcome_of_pointCommand {i : Instr} (h : i ∈ ([.identity, .add, .double, .mulscalar, .mulgen] : List Instr))
    (e : Engine) : ∃ r, outcome i e = pointResult r := by
  simp only [List.mem_cons, List.not_mem_nil, or_false] at h
  obtain rfl | rfl | rfl | rfl | rfl := h
  case inl => exact ⟨some .infinity, rfl⟩
  all_goals exact ⟨_, rfl⟩

theorem outcome_of_fieldCommand {i : Instr} (h : i ∉ ([.identity, .add, .double, .mulscalar, .mulgen] : List Instr))
    (e : Engine) : ∃ r, outcome i e = scalarResult r := by
  rw [not_pointCommand_iff] at h
  simp only [List.mem_cons, List.not_mem_nil, or_false] at h
  obtain rfl | rfl | rfl | rfl | rfl | rfl | rfl | rfl | rfl | rfl | rfl | rfl := h
  all_goals
    simp only [outcome, evalInvert, evalModulo, evalMulmod, evalMontmul]
    exact ⟨_, rfl⟩

/-! ### The completion step -/

theorem complete_pointResult_s (r : Option Point) (e : Engine) : (complete (pointResult r) e).s = e.s := by
  cases r <;> simp

theorem complete_scalarResult_samePoint (r : Option Int) (e : Engine) : samePoint e (complete (scalarResult r) e) := by
  cases r <;> simp [samePoint]

/-- STATUS.ERR after a completion depends on the outcome alone. -/
theorem complete_err_congr (r : Result) (e e' : Engine) : (complete r e').err = (complete r e).err := by
  cases r <;> simp

/-- A point committed without error is the same, whatever the engine held before. -/
theorem complete_pointResult_samePoint {r : Option Point} {e : Engine} (h : (complete (pointResult r) e).err = .none)
    (e' : Engine) : samePoint (complete (pointResult r) e) (complete (pointResult r) e') := by
  cases r with
  | none => simp at h
  | some v => cases v <;> simp [samePoint]

/-- A scalar committed without error is the same, whatever the engine held before. -/
theorem complete_scalarResult_s {r : Option Int} {e : Engine} (h : (complete (scalarResult r) e).err = .none)
    (e' : Engine) : (complete (scalarResult r) e').s = (complete (scalarResult r) e).s := by
  cases r with
  | none => simp at h
  | some v => simp

/-- R36: a completion that sets RINF zeroes RX and RY. -/
theorem engineInv_complete (r : Result) {e : Engine} (h : engineInv e) : engineInv (complete r e) := by
  obtain ⟨-, zero⟩ := h
  refine ⟨by simp [complete_spec], ?_⟩
  rcases r with (_ | ⟨x, y⟩) | v | code
  · simp
  · simp
  · simpa using zero
  · simpa using zero

theorem irq_complete (r : Result) (e : Engine) : irq (complete r e) = e.ie := by
  obtain ⟨⟨-, ie, -⟩, done, -⟩ := complete_spec r e
  simp [irq, ie, done]

/-! ### The port -/

/-- The write of a register that the host may write leaves the results. -/
theorem setReg_keeps_results {r : DataReg} (h : hostWritable r = true) (v : Word256) (e : Engine) :
    samePoint e (setReg r v e) ∧ (setReg r v e).s = e.s := by
  have rx : r ≠ .rx := by rintro rfl; cases h
  have ry : r ≠ .ry := by rintro rfl; cases h
  have s : r ≠ .s := by rintro rfl; cases h
  simp [samePoint, setReg_rx, setReg_ry, setReg_s, rx, ry, s]

/-- R23: no write transaction writes RX, RY, RINF or S. -/
theorem memWrite_keeps_results (w : WordAddr) (v : Word) (e : Engine) :
    samePoint e (memWrite w v e) ∧ (memWrite w v e).s = e.s := by
  obtain same | ⟨-, ⟨-, same⟩ | ⟨-, same⟩ | ⟨-, same⟩ | ⟨-, same⟩ | ⟨r, -, writable, same⟩⟩ := memWrite_cases w v e <;>
    rw [same]
  case inr.inr.inr.inr.inr => exact setReg_keeps_results writable _ e
  all_goals simp [samePoint]

/-- PHASE and ERR are as before, and DONE is not raised. -/
abbrev keepsStatus (e e' : Engine) : Prop :=
  e'.phase = e.phase ∧ e'.err = e.err ∧ (e.done = false → e'.done = false)

/-- R67: a write transaction is a start step on an IDLE engine, or leaves PHASE and ERR. -/
theorem memWrite_starts_or_keepsStatus (w : WordAddr) (v : Word) (e : Engine) :
    (e.phase = .idle ∧ memWrite w v e = startStep v e) ∨ keepsStatus e (memWrite w v e) := by
  obtain same | ⟨idle, ⟨-, same⟩ | ⟨-, same⟩ | ⟨-, same⟩ | ⟨-, same⟩ | ⟨r, -, -, same⟩⟩ := memWrite_cases w v e <;>
    rw [same]
  case inr.inl => exact .inl ⟨idle, rfl⟩
  all_goals exact .inr (by simp +contextual [keepsStatus])

theorem memWrite_command {e : Engine} (h : e.phase = .idle) (v : Word) : memWrite 0x00 v e = startStep v e := by
  simp [memWrite, h]

theorem memWrite_status {e : Engine} (h : e.phase = .idle) (v : Word) : memWrite 0x01 v e = writeStatus v e := by
  simp [memWrite, h]

/-- The read of a word of a register, at its address. -/
theorem memRead_wordAddr (r : DataReg) {j : Nat} (hj : j < 8) (e : Engine) :
    memRead (BitVec.ofNat 8 (8 * regNumber r + j)) e = getWord (readReg r e) j := by
  have addr : (wordAddr r j).toNat = 8 * regNumber r + j := wordAddr_toNat r hj
  have bounds := regNumber_bounds r
  have above (w : WordAddr) (hw : w.toNat < 8) : wordAddr r j ≠ w := by rintro rfl; omega
  show memRead (wordAddr r j) e = _
  unfold memRead
  rw [if_neg (above _ (by decide)), if_neg (above _ (by decide)), if_neg (above _ (by decide)),
    if_neg (above _ (by decide)), regOfAddr_of_toNat hj addr, wordIndex_of_toNat hj addr]

/-- R64: the words of a register, read one by one, add up to its value. -/
theorem sum_memRead_words (r : DataReg) (e : Engine) :
    ∑ j ∈ Finset.range 8, (memRead (BitVec.ofNat 8 (8 * regNumber r + j)) e).toNat * 2 ^ (32 * j) =
      (readReg r e).toNat := by
  have words : ∀ j ∈ Finset.range 8, (memRead (BitVec.ofNat 8 (8 * regNumber r + j)) e).toNat * 2 ^ (32 * j) =
      (readReg r e).toNat / 2 ^ (32 * j) % 2 ^ 32 * 2 ^ (32 * j) := fun j hj => by
    rw [memRead_wordAddr r (Finset.mem_range.1 hj), getWord_toNat]
  have bound := (readReg r e).isLt
  rw [Finset.sum_congr rfl words]
  simp only [Finset.sum_range_succ, Finset.sum_range_zero]
  omega

/-- With the inputs the same, a register reads the same unless it is a result that changed. -/
theorem readReg_congr {e e' : Engine} (inputs : sameInputs e e') {r : DataReg} (rx : r = .rx → e'.rx = e.rx)
    (ry : r = .ry → e'.ry = e.ry) (s : r = .s → e'.s = e.s) : readReg r e' = readReg r e := by
  obtain ⟨-, -, -, -, px, py, qx, qy, k, a, b, m⟩ := inputs
  cases r <;> simp_all [readReg]

/-- With the inputs the same, an address other than STATUS reads the same when RINF, where it is read, and the register the
address lies in are the same. -/
theorem memRead_congr {e e' : Engine} (inputs : sameInputs e e') {w : WordAddr} (status : w ≠ 0x01)
    (flags : w = 0x03 → e'.rinf = e.rinf)
    (data : ∀ r, w.toNat / 8 = regNumber r → readReg r e' = readReg r e) : memRead w e' = memRead w e := by
  obtain ⟨cmd, ie, pinf, qinf, -⟩ := inputs
  unfold memRead
  by_cases h0 : w = 0x00
  · rw [if_pos h0, if_pos h0, cmd]
  by_cases h2 : w = 0x02
  · rw [if_neg h0, if_neg h0, if_neg status, if_neg status, if_pos h2, if_pos h2, ctrlWord, ctrlWord, ie]
  by_cases h3 : w = 0x03
  · simp only [h3, ptflagsWord, pinf, qinf, flags h3]
    rfl
  · rw [if_neg h0, if_neg h0, if_neg status, if_neg status, if_neg h2, if_neg h2, if_neg h3, if_neg h3]
    cases reg : regOfAddr w with
    | none => rfl
    | some r => simp only [data r (regOfNumber_eq_some reg)]

/-! ### The turns -/

/-- R23, R67: a turn of the host leaves the results. -/
theorem hostTurn_keeps_results (s : State) :
    samePoint s.engine (hostTurn s).engine ∧ (hostTurn s).engine.s = s.engine.s := by
  obtain ⟨same | ⟨w, v, same⟩, -⟩ := hostTurn_spec s <;> rw [same]
  · simp [samePoint]
  · exact memWrite_keeps_results w v s.engine

/-- R67: a turn of the host starts a command on an IDLE engine, or leaves PHASE and ERR. -/
theorem hostTurn_starts_or_keepsStatus (s : State) :
    (s.engine.phase = .idle ∧ ∃ v, (hostTurn s).engine = startStep v s.engine) ∨
      keepsStatus s.engine (hostTurn s).engine := by
  obtain ⟨same | ⟨w, v, same⟩, -⟩ := hostTurn_spec s <;> rw [same]
  · exact .inr ⟨rfl, rfl, id⟩
  · exact (memWrite_starts_or_keepsStatus w v s.engine).imp_left fun ⟨idle, start⟩ => ⟨idle, v, start⟩

/-- spec/20_memory.md R63: while BUSY a turn of the host leaves the engine. -/
theorem hostTurn_engine_of_busy {s : State} (h : s.engine.phase = .busy) : (hostTurn s).engine = s.engine := by
  obtain ⟨same | ⟨w, v, same⟩, -⟩ := hostTurn_spec s
  · exact same
  · rw [same, memWrite_of_busy h]

theorem engineInv_hostTurn {s : State} (h : engineInv s.engine) : engineInv (hostTurn s).engine := by
  obtain ⟨quiet, zero⟩ := h
  obtain ⟨⟨rinf, rx, ry⟩, -⟩ := hostTurn_keeps_results s
  refine ⟨fun busy => ?_, by rwa [rinf, rx, ry]⟩
  obtain ⟨-, v, start⟩ | ⟨phase, err, done⟩ := hostTurn_starts_or_keepsStatus s
  · rw [start]; exact ⟨rfl, rfl⟩
  · obtain ⟨notDone, noErr⟩ := quiet (phase ▸ busy)
    exact ⟨done notDone, err ▸ noErr⟩

theorem engineInv_reset : engineInv Engine.reset := ⟨nofun, fun _ => ⟨rfl, rfl⟩⟩

theorem step_of_hostTurn {s : State} (h : nextTurn s = .host) : step s = .next (hostTurn (takeTurn s)) := by
  simp only [step, h]

theorem step_of_engineTurn {s : State} (h : nextTurn s = .engine) : step s = engineTurn (takeTurn s) := by
  simp only [step, h]

theorem engineTurn_of_idle {s : State} (h : s.engine.phase = .idle) : engineTurn s = .next s := by
  simp only [engineTurn, fetchCommand_idle h]

theorem engineTurn_of_legal {s : State} {i : Instr} (h : s.engine.phase = .busy) (hd : decode s.engine.cmd = .ok i) :
    engineTurn s = exec i s := by
  simp only [engineTurn, fetchCommand_legal h hd]

/-- R43, R99: the outcome of the command word in flight, legal or not. -/
def outcomeInFlight (e : Engine) : Result :=
  match decode e.cmd with
  | .ok i => outcome i e
  | .error _ => .err .illegalCmd

/-- R43: while BUSY the engine's turn is the completion step for the outcome of the word in flight. -/
theorem engineTurn_of_busy {s : State} (h : s.engine.phase = .busy) :
    engineTurn s = finish (outcomeInFlight s.engine) s := by
  unfold outcomeInFlight
  cases decoded : decode s.engine.cmd with
  | ok i => rw [engineTurn_of_legal h decoded, exec_eq_finish_outcome]
  | error why => simp only [engineTurn, fetchCommand_illegal h decoded]; rfl

/-! ### Runs -/

theorem runSteps_succ_of_step {n : Nat} {s t : State} (h : step s = .next t) : runSteps (n + 1) s = runSteps n t := by
  simp only [runSteps, h]

theorem runSteps_one (s : State) : runSteps 1 s = step s := by
  simp only [runSteps]
  cases step s <;> rfl

/-- R63, R70: n turns of the host while BUSY leave the engine as it is, and the run goes on from there. -/
theorem runSteps_hostTurns_of_busy (n m : Nat) (rest : List Turn) :
    ∀ s : State, s.engine.phase = .busy → s.schedule = List.replicate n Turn.host ++ rest →
      ∃ t, runSteps (n + m) s = runSteps m t ∧ t.engine = s.engine ∧ t.schedule = rest := by
  induction n with
  | zero => exact fun s _ schedule => ⟨s, by rw [Nat.zero_add], rfl, schedule⟩
  | succ n ih =>
    intro s busy schedule
    have turn : nextTurn s = .host := by rw [nextTurn, schedule]; rfl
    have engine : (hostTurn (takeTurn s)).engine = s.engine := hostTurn_engine_of_busy (s := takeTurn s) busy
    have after : (hostTurn (takeTurn s)).schedule = List.replicate n Turn.host ++ rest := by
      rw [(hostTurn_spec _).2, takeTurn_schedule, schedule]; rfl
    obtain ⟨t, run, same, left⟩ := ih _ (engine ▸ busy) after
    refine ⟨t, ?_, same.trans engine, left⟩
    rw [Nat.add_right_comm, runSteps_succ_of_step (step_of_hostTurn turn), run]

/-! ### The statements on turns -/

/-- Settles O12: the invariant is kept by each of the four things a step can do. -/
theorem invariantKeptByEveryStep : Obligations.InvariantKeptByEveryStep := by
  intro s t inv h
  obtain ⟨-, rfl⟩ | ⟨-, rfl⟩ | ⟨-, -, rfl⟩ | ⟨-, -, r, rfl⟩ := step_cases h
  · exact engineInv_hostTurn (s := takeTurn s) inv
  · exact engineInv_reset
  · exact inv
  · exact engineInv_complete r inv

/-- Settles O17: the host's turns leave the engine, and the completion step reads the engine alone. -/
theorem completionIndependentOfLatency : Obligations.CompletionIndependentOfLatency := by
  intro n s busy
  obtain ⟨t, run, engine, schedule⟩ := runSteps_hostTurns_of_busy n 1 [Turn.engine]
    { s with schedule := List.replicate n Turn.host ++ [Turn.engine] } busy rfl
  have turn : nextTurn t = .engine := by rw [nextTurn, schedule]
  have late : step t = finish (outcomeInFlight s.engine) (takeTurn t) := by
    rw [step_of_engineTurn turn, engineTurn_of_busy (by rw [takeTurn_engine, engine]; exact busy), takeTurn_engine, engine]
  have now : step { s with schedule := [Turn.engine] } = finish (outcomeInFlight s.engine) { s with schedule := [] } :=
    engineTurn_of_busy (s := { s with schedule := [] }) busy
  obtain ⟨-, done, idle, -⟩ := complete_spec (outcomeInFlight s.engine) s.engine
  rw [run, runSteps_one, late, now, finish_eq, finish_eq, takeTurn_engine, engine]
  exact ⟨_, _, rfl, rfl, rfl, idle, done⟩

/-- Settles O13: an engine's turn waits, or is a completion, which keeps the inputs. -/
theorem operandsKeptByTheEngine : Obligations.OperandsKeptByTheEngine := by
  intro s t turn h
  obtain ⟨other, -⟩ | ⟨other, -⟩ | ⟨-, -, rfl⟩ | ⟨-, -, r, rfl⟩ := step_cases h
  · rw [turn] at other; cases other
  · rw [turn] at other; cases other
  · simp [sameInputs]
  · exact (complete_spec r s.engine).1

/-- Settles O14: a host's turn is at most one write transaction, and none writes a result. -/
theorem hostNeverWritesResults : Obligations.HostNeverWritesResults := by
  intro s t turn h
  rw [step_of_hostTurn turn, Host.Outcome.next.injEq] at h
  subst h
  exact hostTurn_keeps_results (takeTurn s)

/-- Settles O16: the host's turn changes PHASE by a start step only, and no other turn makes an engine BUSY. -/
theorem phaseChangesOnlyByStartCompletionOrReset : Obligations.PhaseChangesOnlyByStartCompletionOrReset := by
  intro s t h
  obtain ⟨turn, rfl⟩ | ⟨turn, rfl⟩ | ⟨turn, idle, rfl⟩ | ⟨turn, busy, r, rfl⟩ := step_cases h
  · obtain ⟨idle, v, start⟩ | ⟨phase, -⟩ := hostTurn_starts_or_keepsStatus (takeTurn s)
    · refine ⟨fun busy => ?_, fun _ _ => ⟨turn, v, start⟩⟩
      rw [takeTurn_engine, busy] at idle; cases idle
    · rw [takeTurn_engine] at phase
      refine ⟨fun busy idle => ?_, fun idle busy => ?_⟩
      · rw [phase, busy] at idle; cases idle
      · rw [phase, idle] at busy; cases busy
  · exact ⟨fun _ _ => .inr turn, fun _ busy => nomatch busy⟩
  · refine ⟨fun _ _ => .inl turn, fun _ busy => ?_⟩
    rw [takeTurn_engine, idle] at busy; cases busy
  · refine ⟨fun _ _ => .inl turn, fun idle _ => ?_⟩
    rw [busy] at idle; cases idle

/-- R93, R99: the decoder reads back the word of every command. -/
theorem decode_encode (i : Instr) : decode (encode i) = .ok i := by
  cases i <;> rfl

/-- Settles O5: a legal word in flight is executed by the engine's turn. -/
theorem stepRunsTheDecodedCommand : Obligations.StepRunsTheDecodedCommand := by
  intro s i turn busy decoded
  rw [step_of_engineTurn turn]
  exact engineTurn_of_legal (s := takeTurn s) busy decoded

/-- Settles O8: with nothing in flight the engine's turn only takes the turn off the schedule. -/
theorem idleEngineWaits : Obligations.IdleEngineWaits := by
  intro s turn idle
  rw [step_of_engineTurn turn]
  exact engineTurn_of_idle (s := takeTurn s) idle

/-- R42, R97: the host's turn on the line `CMD i` is the start step of i's word. -/
theorem hostTurn_commandLine {s : State} {i : Instr} {rest : List HostOp} (idle : s.engine.phase = .idle)
    (script : s.host.script = expandLine (.cmd i) ++ rest) :
    hostTurn s = { s with engine := startStep (encode i) s.engine, host := { s.host with script := rest } } := by
  have line : s.host.script = .write 0x00 (encode i) :: rest := script
  simp only [hostTurn, line, hostWrite, memWrite_command idle]

/-- Settles O19: the host's turn is the start step, and the engine's turn then runs the command by O5. -/
theorem commandLineStartsAndRuns : Obligations.CommandLineStartsAndRuns := by
  intro s i rest turns idle script schedule
  have turn : nextTurn s = .host := by rw [nextTurn, schedule]
  have tail : (takeTurn s).schedule = Turn.engine :: turns := by rw [takeTurn_schedule, schedule]; rfl
  have start := hostTurn_commandLine (s := takeTurn s) idle script
  rw [tail] at start
  rw [runSteps_succ_of_step (step_of_hostTurn turn), runSteps_one, start]
  exact stepRunsTheDecodedCommand _ i rfl rfl (decode_encode i)

/-! ### The statements on commands -/

/-- R62, R110: after a point command, an address outside STATUS, PTFLAGS, RX and RY reads as before. -/
theorem memRead_of_pointCommand {e e' : Engine} (inputs : sameInputs e e') (s : e'.s = e.s) {w : WordAddr}
    (status : w ≠ 0x01) (flags : w ≠ 0x03) (outside : ¬ (0x28 ≤ w.toNat ∧ w.toNat ≤ 0x37)) :
    memRead w e' = memRead w e := by
  refine memRead_congr inputs status (absurd · flags) fun r reg => readReg_congr inputs ?_ ?_ fun _ => s
  all_goals
    rintro rfl
    simp only [regNumber] at reg
    omega

/-- R62, R153: after a field command, an address outside STATUS and S reads as before. -/
theorem memRead_of_fieldCommand {e e' : Engine} (inputs : sameInputs e e') (point : samePoint e e') {w : WordAddr}
    (status : w ≠ 0x01) (outside : ¬ (0x58 ≤ w.toNat ∧ w.toNat ≤ 0x5F)) : memRead w e' = memRead w e := by
  obtain ⟨rinf, rx, ry⟩ := point
  refine memRead_congr inputs status (fun _ => rinf) fun r reg =>
    readReg_congr inputs (fun _ => rx) (fun _ => ry) ?_
  rintro rfl
  simp only [regNumber] at reg
  omega

/-- Settles O58: a completion keeps the inputs, and each kind of outcome the results of the other kind. -/
theorem commandFrame : Obligations.CommandFrame := by
  intro i s
  obtain ⟨inputs, done, idle, -⟩ := complete_spec (outcome i s.engine) s.engine
  refine ⟨_, exec_eq_next_iff.2 rfl, done, idle, inputs, ⟨rfl, rfl⟩, fun point => ?_, fun field => ?_⟩
  · obtain ⟨r, result⟩ := outcome_of_pointCommand point s.engine
    have kept : (complete (outcome i s.engine) s.engine).s = s.engine.s := by rw [result, complete_pointResult_s]
    exact ⟨kept, fun w status flags outside => memRead_of_pointCommand inputs kept status flags outside⟩
  · obtain ⟨r, result⟩ := outcome_of_fieldCommand field s.engine
    have kept : samePoint s.engine (complete (outcome i s.engine) s.engine) := by
      rw [result]; exact complete_scalarResult_samePoint r s.engine
    exact ⟨kept, fun w status outside => memRead_of_fieldCommand inputs kept status outside⟩

/-- R92, R22: the outcome reads the operands of the command's row, and nothing else of the engine. -/
theorem outcome_congr {i : Instr} {e e' : Engine}
    (p : i ∈ ([.add, .double, .mulscalar] : List Instr) → ptP e' = ptP e)
    (q : i = .add → ptQ e' = ptQ e)
    (k : i ∈ ([.mulscalar, .mulgen] : List Instr) → e'.k = e.k)
    (a : i ∉ ([.identity, .add, .double, .mulscalar, .mulgen] : List Instr) → e'.a = e.a)
    (b : i ∈ ([.mulmodP, .mulmodN, .mulmodM, .montmulP, .montmulN, .montmulM] : List Instr) → e'.b = e.b)
    (m : i ∈ ([.invertM, .moduloM, .mulmodM, .montmulM] : List Instr) → e'.m = e.m) :
    outcome i e' = outcome i e := by
  have scalar (h : e'.k = e.k) : scalarK e' = scalarK e := by rw [scalarK, h, scalarK]
  have first (h : e'.a = e.a) : operandA e' = operandA e := by rw [operandA, h, operandA]
  have second (h : e'.b = e.b) : operandB e' = operandB e := by rw [operandB, h, operandB]
  have select (h : e'.m = e.m) : modulus .m e' = modulus .m e := by simp only [modulus, h]
  cases i with
  | identity => rfl
  | add => simp only [outcome, p (by decide), q rfl]
  | double => simp only [outcome, p (by decide)]
  | mulscalar => simp only [outcome, p (by decide), scalar (k (by decide))]
  | mulgen => simp only [outcome, scalar (k (by decide))]
  | invertP | invertN | moduloP | moduloN =>
    simp only [outcome, evalInvert, evalModulo, first (a (by decide))]; rfl
  | invertM | moduloM =>
    simp only [outcome, evalInvert, evalModulo, first (a (by decide)), select (m (by decide))]
  | mulmodP | mulmodN | montmulP | montmulN =>
    simp only [outcome, evalMulmod, evalMontmul, first (a (by decide)), second (b (by decide))]; rfl
  | mulmodM | montmulM =>
    simp only [outcome, evalMulmod, evalMontmul, first (a (by decide)), second (b (by decide)), select (m (by decide))]

/-- Settles O60: equal operands give equal outcomes, and a completion without error writes the outcome alone. -/
theorem resultDependsOnlyOnItsOperands : Obligations.ResultDependsOnlyOnItsOperands := by
  intro i s s' t t' h h' p q k a b m
  obtain rfl := exec_eq_next_iff.1 h
  obtain rfl := exec_eq_next_iff.1 h'
  simp only [outcome_congr p q k a b m]
  refine ⟨complete_err_congr _ _ _, fun noErr => ⟨fun point => ?_, fun field => ?_⟩⟩
  · obtain ⟨r, result⟩ := outcome_of_pointCommand point s.engine
    rw [result] at noErr ⊢
    exact complete_pointResult_samePoint noErr s'.engine
  · obtain ⟨r, result⟩ := outcome_of_fieldCommand field s.engine
    rw [result] at noErr ⊢
    exact complete_scalarResult_s noErr s'.engine

/-- Settles O24: a completion raises DONE and keeps IE; the start step and the acknowledgement clear DONE. -/
theorem irqFollowsCompletion : Obligations.IrqFollowsCompletion := by
  refine ⟨fun i s => ⟨_, exec_eq_next_iff.2 rfl, irq_complete _ _⟩, fun e v idle => ?_, fun e v idle ack => ?_⟩
  · rw [memWrite_command idle]; simp [irq]
  · rw [memWrite_status idle]; simp only [irq, writeStatus_done, ack, Bool.not_true, Bool.and_false]

/-! ### The statements on reset and the constants -/

/-- Settles O9: every entry of the table is a field of the reset value. -/
theorem resetStateAsSpecified : Obligations.ResetStateAsSpecified := by
  have table : isResetEngine State.reset.engine := by decide
  have words : memRead 0x00 State.reset.engine = 0x00000000 ∧ memRead 0x01 State.reset.engine = 0x00000000 ∧
      memRead 0x02 State.reset.engine = 0x00000000 ∧ memRead 0x03 State.reset.engine = 0x00000007 := by decide
  obtain ⟨command, status, ctrl, flags⟩ := words
  exact ⟨table, command, status, ctrl, flags, rfl, rfl, rfl, rfl, rfl, rfl, rfl, rfl, rfl, rfl, rfl⟩

/-- Settles O11: after reset nothing is in flight, and RX and RY are zero. -/
theorem invariantAfterReset : Obligations.InvariantAfterReset := engineInv_reset

/-- Settles O23: each constant is a register, whose words add up to its value. -/
theorem constantsReadTheirValues : Obligations.ConstantsReadTheirValues := by
  intro e base value h
  simp only [List.mem_cons, List.not_mem_nil, or_false, Prod.mk.injEq] at h
  obtain ⟨rfl, rfl⟩ | ⟨rfl, rfl⟩ | ⟨rfl, rfl⟩ | ⟨rfl, rfl⟩ | ⟨rfl, rfl⟩ | ⟨rfl, rfl⟩ | ⟨rfl, rfl⟩ := h
  · exact sum_memRead_words .cp e
  · exact sum_memRead_words .cn e
  · exact sum_memRead_words .ca e
  · exact sum_memRead_words .cb e
  · exact sum_memRead_words .cgx e
  · exact sum_memRead_words .cgy e
  · exact sum_memRead_words .ch e

/-- spec/42_field_arithmetic.md R150: for a positive modulus, `modulo` is the Euclidean remainder. -/
theorem modulo_eq_emod {m : Int} (hm : 0 < m) (a : Int) : modulo a m = a % m := by
  have upper := Int.emod_lt_of_pos a hm
  have lower := Int.emod_nonneg a hm.ne'
  have shifted : a.tmod m = a % m ∨ (a.tmod m = a % m - m ∧ a % m ≠ 0) := by
    rw [Int.tmod_eq_emod]
    split
    · exact .inl (sub_zero _)
    · next h =>
      refine .inr ⟨by omega, fun zero => h (.inr (Int.dvd_of_emod_eq_zero zero))⟩
  simp only [modulo]
  split <;> omega

/-- Fermat's test for cubes: modulo a prime p = 3k + 1 with k even, -c is a cube only if c^k ≡ 1. -/
theorem cube_add_emod_ne_zero {p c k : Nat} (prime : p.Prime) (exponent : p - 1 = 3 * k) (even : Even k)
    (nonzero : ¬ p ∣ c) (noCube : c ^ k % p ≠ 1) (x : Int) : (x * x * x + c) % p ≠ 0 := by
  intro root
  have fact : Fact p.Prime := ⟨prime⟩
  have cube : (x : ZMod p) ^ 3 = -(c : ZMod p) := by
    have zero := (ZMod.intCast_zmod_eq_zero_iff_dvd _ p).2 (Int.dvd_of_emod_eq_zero root)
    push_cast at zero
    linear_combination zero
  have unit : (x : ZMod p) ≠ 0 := by
    intro zero
    rw [zero, zero_pow three_ne_zero, eq_comm, neg_eq_zero, ZMod.natCast_eq_zero_iff] at cube
    exact nonzero cube
  have power : (c : ZMod p) ^ k = 1 := by
    rw [← even.neg_pow, ← cube, ← pow_mul, ← exponent, ZMod.pow_card_sub_one_eq_one unit]
  rw [← Nat.cast_pow, ← Nat.cast_one, ZMod.natCast_eq_natCast_iff', Nat.mod_eq_of_lt prime.one_lt] at power
  exact noCube power

/-- R32: x³ + 7 ≡ 0 has no solution modulo p. -/
theorem cube_add_seven_ne_zero (x : Int) : (x * x * x + 7) % primeP ≠ 0 := by
  have noCube : 7 ^ ((curveP.toNat - 1) / 3) % curveP.toNat ≠ 1 := by
    rw [← Laws.powMod_eq _ 256 _ _ (by decide +kernel)]
    decide +kernel
  exact cube_add_emod_ne_zero Laws.curveP_prime (by decide +kernel) (Nat.even_iff.2 (by decide +kernel))
    (by decide +kernel) noCube x

/-- An affine point with y = 0 is not on the curve: its x would be a root of x³ + 7. -/
theorem onCurve_y_zero (x : Int) : onCurve (.affine x 0) = false := by
  have positive : 0 < primeP := by decide +kernel
  have seven : (curveB.toNat : Int) = 7 := by decide
  have zero : (curveA.toNat : Int) = 0 := by decide
  rw [onCurve, decide_eq_false_iff_not]
  rintro ⟨-, -, -, -, equation⟩
  rw [modulo_eq_emod positive, seven, zero] at equation
  refine cube_add_seven_ne_zero x (Int.emod_eq_zero_of_dvd ?_)
  have negated : -(x * x * x + 7) = 0 * 0 - x * x * x - 0 * x - 7 := by ring
  rw [← dvd_neg, negated]
  exact Int.dvd_of_emod_eq_zero equation

/-- Settles O39: the source's invariants by `Laws.curveInvariants_hold`, the numeric facts by evaluation, and the absence of a point
with y = 0 by the cube test. -/
theorem curveConstantFacts : Obligations.CurveConstantFacts := by
  have facts : curveFacts := by unfold curveFacts; decide +kernel
  exact ⟨Laws.curveInvariants_hold, facts, ⟨cube_add_seven_ne_zero, onCurve_y_zero⟩, by decide +kernel⟩

end Sys2Proof.Proofs
end

section
/-! PROOFS. The family 20_memory: the one port (spec/20_memory.md). First the words of a register and the two maps of the address
space, one equation per range; then the statements. -/

namespace Sys2Proof.Proofs

open Sys2Proof.Machine

/-! ### The control words as numbers

spec/20_memory.md R62: a control register is the concatenation of its fields, so its value is their weighted sum. -/

theorem toNat_append_eq_add {m n : Nat} (x : BitVec m) (y : BitVec n) :
    (x ++ y).toNat = x.toNat * 2 ^ n + y.toNat := by
  rw [BitVec.toNat_append, ← Nat.shiftLeft_add_eq_or_of_lt y.isLt, Nat.shiftLeft_eq]

theorem statusWord_toNat (e : Engine) :
    (statusWord e).toNat = 16 * (errBits e.err).toNat + 2 * e.done.toNat + (busy e).toNat := by
  simp only [statusWord, toNat_append_eq_add, BitVec.toNat_ofNat, BitVec.toNat_ofBool]
  omega

theorem ctrlWord_toNat (e : Engine) : (ctrlWord e).toNat = e.ie.toNat := by
  simp only [ctrlWord, toNat_append_eq_add, BitVec.toNat_ofNat, BitVec.toNat_ofBool]
  omega

theorem ptflagsWord_toNat (e : Engine) :
    (ptflagsWord e).toNat = 4 * e.rinf.toNat + 2 * e.qinf.toNat + e.pinf.toNat := by
  simp only [ptflagsWord, toNat_append_eq_add, BitVec.toNat_ofNat, BitVec.toNat_ofBool]
  omega

/-! ### The words of a register value -/

/-- R63, bit by bit: the 32 bits of word j are those of the new word, "the other 224 bits keep their values". -/
theorem setWord_getLsbD (v : Word256) {j : Nat} (hj : j < 8) (w : Word) (i : Nat) :
    (setWord v j w).getLsbD i = if 32 * j ≤ i ∧ i < 32 * j + 32 then w.getLsbD (i - 32 * j) else v.getLsbD i := by
  have mask : (0xFFFFFFFF : Word256) = (BitVec.allOnes 32).setWidth 256 := rfl
  rw [setWord, mask]
  simp only [BitVec.getLsbD_or, BitVec.getLsbD_and, BitVec.getLsbD_not, BitVec.getLsbD_shiftLeft, BitVec.getLsbD_setWidth,
    BitVec.getLsbD_allOnes]
  split
  · next inside =>
    obtain ⟨lower, upper⟩ := inside
    have offset : i - 32 * j < 32 := by omega
    have extended : i - 32 * j < 256 := by omega
    have width : i < 256 := by omega
    simp [offset, extended, width, Nat.not_lt.2 lower]
  · next outside =>
    have offset : i < 32 * j ∨ ¬ i - 32 * j < 32 := by omega
    rcases offset with before | after
    · simpa [before] using BitVec.lt_of_getLsbD
    · have high : w.getLsbD (i - 32 * j) = false := BitVec.getLsbD_of_ge _ _ (by omega)
      simpa [after, high] using BitVec.lt_of_getLsbD

theorem getWord_getLsbD (v : Word256) (j i : Nat) : (getWord v j).getLsbD i = (decide (i < 32) && v.getLsbD (32 * j + i)) := by
  simp [getWord]

theorem getWord_setWord_same (v : Word256) {j : Nat} (hj : j < 8) (w : Word) : getWord (setWord v j w) j = w := by
  refine BitVec.eq_of_getLsbD_eq fun i hi => ?_
  rw [getWord_getLsbD, setWord_getLsbD v hj, if_pos (by omega), Nat.add_sub_cancel_left, decide_eq_true hi, Bool.true_and]

theorem getWord_setWord_ne (v : Word256) {j j' : Nat} (hj : j < 8) (ne : j' ≠ j) (w : Word) :
    getWord (setWord v j w) j' = getWord v j' := by
  refine BitVec.eq_of_getLsbD_eq fun i hi => ?_
  rw [getWord_getLsbD, getWord_getLsbD, setWord_getLsbD v hj, if_neg (by omega)]

/-! ### The registers of the address space -/

/-- R21: the name and the number of a register determine each other. -/
theorem regOfNumber_eq_some_iff {i : Nat} {r : DataReg} : regOfNumber i = some r ↔ i = regNumber r :=
  ⟨regOfNumber_eq_some, fun h => h ▸ regOfNumber_regNumber r⟩

theorem exists_regNumber {i : Nat} (lower : 1 ≤ i) (upper : i ≤ 18) : ∃ r, i = regNumber r := by
  suffices found : ∃ r, regOfNumber i = some r from found.imp fun r h => regOfNumber_eq_some h
  interval_cases i <;> exact ⟨_, rfl⟩

/-- R62: the eight word addresses of a register. -/
theorem regOfAddr_eq_some_iff {w : WordAddr} {r : DataReg} : regOfAddr w = some r ↔ w.toNat / 8 = regNumber r :=
  regOfNumber_eq_some_iff

/-- R62, R66: no register lies below 0x08 or from 0x98 on. -/
theorem regOfAddr_eq_none {w : WordAddr} (outside : w.toNat < 8 ∨ 0x98 ≤ w.toNat) : regOfAddr w = none := by
  refine Option.eq_none_iff_forall_not_mem.2 fun r reg => ?_
  have quotient := regOfAddr_eq_some_iff.1 reg
  have bounds := regNumber_bounds r
  omega

/-- R21: the registers the host may write are x[1] to x[4] and x[7] to x[10]. -/
theorem hostWritable_iff (r : DataReg) :
    hostWritable r = true ↔ (1 ≤ regNumber r ∧ regNumber r ≤ 4) ∨ (7 ≤ regNumber r ∧ regNumber r ≤ 10) := by
  cases r <;> decide

/-- R63: the addresses of the registers the host may write. -/
theorem regOfAddr_writable_iff (w : WordAddr) :
    (∃ r, regOfAddr w = some r ∧ hostWritable r = true) ↔
      (0x08 ≤ w.toNat ∧ w.toNat ≤ 0x27) ∨ (0x38 ≤ w.toNat ∧ w.toNat ≤ 0x57) := by
  constructor
  · rintro ⟨r, reg, writable⟩
    rw [regOfAddr_eq_some_iff] at reg
    rw [hostWritable_iff] at writable
    omega
  · intro range
    obtain ⟨r, number⟩ := exists_regNumber (i := w.toNat / 8) (by omega) (by omega)
    exact ⟨r, regOfAddr_eq_some_iff.2 number, (hostWritable_iff r).2 (by omega)⟩

theorem readReg_startStep (r : DataReg) (v : Word) (e : Engine) : readReg r (startStep v e) = readReg r e := by
  cases r <;> rfl

/-! ### What an address reads -/

theorem memRead_command (e : Engine) : memRead 0x00 e = e.cmd := rfl

theorem memRead_status (e : Engine) : memRead 0x01 e = statusWord e := rfl

theorem memRead_ctrl (e : Engine) : memRead 0x02 e = ctrlWord e := rfl

theorem memRead_ptflags (e : Engine) : memRead 0x03 e = ptflagsWord e := rfl

/-- R46: the addresses below 0x04 are the four control registers. -/
theorem four_le_toNat_iff (w : WordAddr) : 4 ≤ w.toNat ↔ w ≠ 0x00 ∧ w ≠ 0x01 ∧ w ≠ 0x02 ∧ w ≠ 0x03 := by
  bv_omega

theorem four_le_toNat_of_regOfAddr {w : WordAddr} {r : DataReg} (reg : regOfAddr w = some r) : 4 ≤ w.toNat := by
  have quotient := regOfAddr_eq_some_iff.1 reg
  have bounds := regNumber_bounds r
  omega

/-- R62, R64: an address in a register reads that register's word. -/
theorem memRead_register {w : WordAddr} {r : DataReg} (reg : regOfAddr w = some r) (e : Engine) :
    memRead w e = getWord (readReg r e) (wordIndex w) := by
  have addr : 8 * regNumber r + wordIndex w = w.toNat := by
    rw [← regOfAddr_eq_some_iff.1 reg]; exact Nat.div_add_mod _ _
  have read := memRead_wordAddr r (j := wordIndex w) (Nat.mod_lt _ (by decide)) e
  rwa [addr, BitVec.ofNat_toNat, BitVec.setWidth_eq] at read

/-- R66: an address that holds nothing reads 0. -/
theorem memRead_reserved {w : WordAddr} (control : 4 ≤ w.toNat) (reg : regOfAddr w = none) (e : Engine) :
    memRead w e = 0 := by
  obtain ⟨h0, h1, h2, h3⟩ := (four_le_toNat_iff w).1 control
  rw [memRead, if_neg h0, if_neg h1, if_neg h2, if_neg h3, reg]

/-- An address reads the same in two engines that agree on what the address shows. -/
theorem memRead_eq_of_shown {e e' : Engine} {w : WordAddr} (command : w = 0x00 → e'.cmd = e.cmd)
    (status : w = 0x01 → statusWord e' = statusWord e) (ctrl : w = 0x02 → ctrlWord e' = ctrlWord e)
    (flags : w = 0x03 → ptflagsWord e' = ptflagsWord e)
    (data : ∀ r, regOfAddr w = some r →
      getWord (readReg r e') (wordIndex w) = getWord (readReg r e) (wordIndex w)) : memRead w e' = memRead w e := by
  by_cases h0 : w = 0x00
  · rw [h0, memRead_command, memRead_command, command h0]
  by_cases h1 : w = 0x01
  · rw [h1, memRead_status, memRead_status, status h1]
  by_cases h2 : w = 0x02
  · rw [h2, memRead_ctrl, memRead_ctrl, ctrl h2]
  by_cases h3 : w = 0x03
  · rw [h3, memRead_ptflags, memRead_ptflags, flags h3]
  cases reg : regOfAddr w with
  | some r => rw [memRead_register reg, memRead_register reg, data r reg]
  | none =>
    have control := (four_le_toNat_iff w).2 ⟨h0, h1, h2, h3⟩
    rw [memRead_reserved control reg, memRead_reserved control reg]

/-! ### What a write transaction does -/

theorem memWrite_ctrl {e : Engine} (idle : e.phase = .idle) (v : Word) : memWrite 0x02 v e = writeCtrl v e := by
  simp [memWrite, idle]

theorem memWrite_ptflags {e : Engine} (idle : e.phase = .idle) (v : Word) : memWrite 0x03 v e = writePtflags v e := by
  simp [memWrite, idle]

/-- R63: a write in a register the host may write replaces that register's word. -/
theorem memWrite_register {e : Engine} (idle : e.phase = .idle) {w : WordAddr} {r : DataReg} (reg : regOfAddr w = some r)
    (writable : hostWritable r = true) (v : Word) :
    memWrite w v e = setReg r (setWord (readReg r e) (wordIndex w) v) e := by
  obtain ⟨h0, h1, h2, h3⟩ := (four_le_toNat_iff w).1 (four_le_toNat_of_regOfAddr reg)
  simp only [memWrite, idle, if_neg h0, if_neg h1, if_neg h2, if_neg h3, reg, writeDataWord, if_pos writable]

/-- R63, R66: a write outside the control registers and the writable registers is ignored. -/
theorem memWrite_ignored {w : WordAddr} (control : 4 ≤ w.toNat)
    (readOnly : ¬ ∃ r, regOfAddr w = some r ∧ hostWritable r = true) (v : Word) (e : Engine) : memWrite w v e = e := by
  obtain ⟨h0, h1, h2, h3⟩ := (four_le_toNat_iff w).1 control
  obtain same | ⟨-, ⟨h, -⟩ | ⟨h, -⟩ | ⟨h, -⟩ | ⟨h, -⟩ | ⟨r, reg, writable, -⟩⟩ := memWrite_cases w v e
  · exact same
  · exact absurd h h0
  · exact absurd h h1
  · exact absurd h h2
  · exact absurd h h3
  · exact absurd ⟨r, reg, writable⟩ readOnly

/-- R63, R64: the write of a word of a register shows in that word alone. -/
theorem memRead_setReg_word {w : WordAddr} {r : DataReg} (reg : regOfAddr w = some r) (notConstant : regNumber r ≤ 11)
    (v : Word) (e : Engine) :
    memRead w (setReg r (setWord (readReg r e) (wordIndex w) v) e) = v ∧
      ∀ w' : WordAddr, w' ≠ w → memRead w' (setReg r (setWord (readReg r e) (wordIndex w) v) e) = memRead w' e := by
  have index : wordIndex w < 8 := Nat.mod_lt _ (by decide)
  refine ⟨?_, fun w' other => ?_⟩
  · rw [memRead_register reg, readReg_setReg, if_pos ⟨rfl, notConstant⟩, getWord_setWord_same _ index]
  · refine memRead_eq_of_shown (fun _ => ?_) (fun _ => ?_) (fun _ => ?_) (fun _ => ?_) fun r' reg' => ?_
    case refine_5 =>
      rw [readReg_setReg]
      split
      · next same =>
        obtain ⟨rfl, -⟩ := same
        have indices : wordIndex w' ≠ wordIndex w := fun equal => other (BitVec.eq_of_toNat_eq (by
          have quotients := (regOfAddr_eq_some_iff.1 reg').trans (regOfAddr_eq_some_iff.1 reg).symm
          have remainders : w'.toNat % 8 = w.toNat % 8 := equal
          omega))
        exact getWord_setWord_ne _ index indices v
      · rfl
    all_goals simp [statusWord, ctrlWord, ptflagsWord, busy]

/-! ### The host's turns -/

theorem hostTurn_of_read {s : State} {w : WordAddr} {rest : List HostOp} (script : s.host.script = .read w :: rest) :
    hostTurn s = hostRead w rest s := by
  simp only [hostTurn, script]

theorem hostTurn_of_write {s : State} {w : WordAddr} {v : Word} {rest : List HostOp}
    (script : s.host.script = .write w v :: rest) : hostTurn s = hostWrite w v rest s := by
  simp only [hostTurn, script]

/-! ### The statements -/

/-- Settles O15: whatever the host does in its turn, its write transaction is ignored while BUSY. -/
theorem busyEngineIgnoresTheHost : Obligations.BusyEngineIgnoresTheHost := by
  intro s busy turn
  exact ⟨_, step_of_hostTurn turn, hostTurn_engine_of_busy (s := takeTurn s) busy, (hostTurn_spec _).2⟩

/-- Settles O20: the read map range by range; a read is recorded by the host alone; and the start step writes only what CMD and
STATUS show. -/
theorem readTransaction : Obligations.ReadTransaction := by
  refine ⟨fun e => ⟨memRead_command e, ?_, ?_, ?_, ?_, ?_⟩, ?_, ?_, ?_⟩
  · rw [memRead_status, statusWord_toNat]
  · rw [memRead_ctrl, ctrlWord_toNat]
  · rw [memRead_ptflags, ptflagsWord_toNat]
  · intro r j w hj addr
    rw [memRead_register (regOfAddr_of_toNat hj addr), wordIndex_of_toNat hj addr, getWord_toNat]
  · intro w reserved
    exact memRead_reserved (by omega) (regOfAddr_eq_none (by omega)) e
  · intro s w rest turn script
    refine ⟨_, step_of_hostTurn turn, ?_⟩
    rw [hostTurn_of_read (s := takeTurn s) script]
    exact ⟨rfl, rfl, rfl⟩
  · rintro e v idle e' rfl
    rw [memWrite_command idle]
    refine ⟨rfl, rfl, fun w command status => ?_⟩
    exact memRead_eq_of_shown (absurd · command) (absurd · status) (fun _ => rfl) (fun _ => rfl) fun r _ => by
      rw [readReg_startStep]
  · intro s t busy turn next
    rw [step_of_hostTurn turn] at next
    cases next
    exact hostTurn_engine_of_busy (s := takeTurn s) busy

/-- Settles O21: the write map range by range, and the host's turn is the write transaction. -/
theorem writeTransaction : Obligations.WriteTransaction := by
  refine ⟨fun e w v => ⟨(memWrite_of_busy · w v), fun idle => ⟨?_, ?_, ?_, ?_, fun range => ?_, fun range => ?_⟩⟩, ?_⟩
  · rintro rfl; exact memWrite_command idle v
  · rintro rfl; exact memWrite_status idle v
  · rintro rfl; exact memWrite_ctrl idle v
  · rintro rfl; exact memWrite_ptflags idle v
  · obtain ⟨r, reg, writable⟩ := (regOfAddr_writable_iff w).2 range
    have number := (hostWritable_iff r).1 writable
    obtain ⟨written, others⟩ := memRead_setReg_word reg (by omega) v e
    rw [memWrite_register idle reg writable]
    exact ⟨written, others, by rw [setReg_phase, idle]⟩
  · refine memWrite_ignored (by omega) (fun found => ?_) v e
    have writable := (regOfAddr_writable_iff w).1 found
    omega
  · intro s w v rest turn script
    refine ⟨_, step_of_hostTurn turn, ?_⟩
    rw [hostTurn_of_write (s := takeTurn s) script]
    exact ⟨rfl, rfl, rfl⟩

/-- Settles O22: the words read at the eight addresses of a register are the digits of its value to the base 2^32. -/
theorem registerIsTheSumOfItsWords : Obligations.RegisterIsTheSumOfItsWords := sum_memRead_words

end Sys2Proof.Proofs
end

section
/-! PROOFS. The family 30_encoding: command words and host scripts (spec/30_encoding.md). First the decoder, one equation per clause of
R99; then the polls of a WAIT; then the runs of the host's operations on an IDLE engine. Each part ends in its statements. -/

namespace Sys2Proof.Proofs

open Sys2Proof.Machine

/-! ### The fields of a command word -/

theorem fieldsOfWord_zero_toNat (c : Word) : (fieldsOfWord c).zero.toNat = c.toNat / 64 := by
  have bound := c.isLt
  simp only [fieldsOfWord, BitVec.extractLsb'_toNat, Nat.shiftRight_eq_div_pow]
  omega

theorem fieldsOfWord_msel_toNat (c : Word) : (fieldsOfWord c).msel.toNat = c.toNat / 16 % 4 := by
  simp only [fieldsOfWord, BitVec.extractLsb'_toNat, Nat.shiftRight_eq_div_pow, Nat.reducePow]

theorem fieldsOfWord_op_toNat (c : Word) : (fieldsOfWord c).op.toNat = c.toNat % 16 := by
  simp only [fieldsOfWord, BitVec.extractLsb'_toNat, Nat.shiftRight_zero, Nat.reducePow]

/-- R90: OP, MSEL and ZERO are all 32 bits of the word. -/
theorem packFields_fieldsOfWord (c : Word) : packFields (fieldsOfWord c) = c := by
  refine BitVec.eq_of_toNat_eq ?_
  rw [packFields, toNat_append_eq_add, toNat_append_eq_add, fieldsOfWord_zero_toNat, fieldsOfWord_msel_toNat,
    fieldsOfWord_op_toNat]
  omega

theorem fieldsOfWord_of_zero {c : Word} (zero : (fieldsOfWord c).zero = 0) :
    fieldsOfWord c = ⟨(fieldsOfWord c).op, (fieldsOfWord c).msel, 0⟩ := by
  rw [← zero]

/-! ### The decoder -/

theorem pointOnly_eq_ok_iff {msel : BitVec 2} {i j : Instr} : pointOnly msel i = .ok j ↔ msel = 0 ∧ i = j := by
  unfold pointOnly
  split
  · next zero => rw [Except.ok.injEq, and_iff_right zero]
  · next nonzero => exact ⟨nofun, fun ⟨zero, _⟩ => absurd zero nonzero⟩

theorem bySelect_eq_ok_iff {msel : BitVec 2} {p n m j : Instr} :
    bySelect msel p n m = .ok j ↔ (msel = 0 ∧ p = j) ∨ (msel = 1 ∧ n = j) ∨ (msel = 2 ∧ m = j) := by
  obtain rfl | rfl | rfl | rfl : msel = 0 ∨ msel = 1 ∨ msel = 2 ∨ msel = 3 := by bv_omega
  all_goals simp [bySelect]

theorem decode_of_zeroFieldSet {c : Word} (set : (fieldsOfWord c).zero ≠ 0) : decode c = .error .zeroFieldSet :=
  if_pos set

/-- R92: the OP values that are no operation. -/
theorem decode_of_noOperation {c : Word} {op : BitVec 4} {msel : BitVec 2} (fields : fieldsOfWord c = ⟨op, msel, 0⟩)
    (outside : op.toNat = 0 ∨ 10 ≤ op.toNat) : decode c = .error .noSuchOperation := by
  simp only [decode, fields]
  obtain rfl | rfl | rfl | rfl | rfl | rfl | rfl :
    op = 0 ∨ op = 10 ∨ op = 11 ∨ op = 12 ∨ op = 13 ∨ op = 14 ∨ op = 15 := by bv_omega
  all_goals rfl

/-- R91, R92: a point operation is the command of its OP value, for MSEL = 0 only. -/
theorem decode_of_pointOperation {c : Word} {op : BitVec 4} {msel : BitVec 2} (fields : fieldsOfWord c = ⟨op, msel, 0⟩)
    (lower : 1 ≤ op.toNat) (upper : op.toNat ≤ 5) :
    ∃ i, decode c = pointOnly msel i ∧ fieldsOfInstr i = ⟨op, 0, 0⟩ := by
  simp only [decode, fields]
  obtain rfl | rfl | rfl | rfl | rfl : op = 1 ∨ op = 2 ∨ op = 3 ∨ op = 4 ∨ op = 5 := by bv_omega
  exacts [⟨.identity, rfl, rfl⟩, ⟨.add, rfl, rfl⟩, ⟨.double, rfl, rfl⟩, ⟨.mulscalar, rfl, rfl⟩, ⟨.mulgen, rfl, rfl⟩]

/-- R91, R92: a field operation is one of the three commands of its OP value, chosen by MSEL. -/
theorem decode_of_fieldOperation {c : Word} {op : BitVec 4} {msel : BitVec 2} (fields : fieldsOfWord c = ⟨op, msel, 0⟩)
    (lower : 6 ≤ op.toNat) (upper : op.toNat ≤ 9) :
    ∃ p n m, decode c = bySelect msel p n m ∧
      fieldsOfInstr p = ⟨op, 0, 0⟩ ∧ fieldsOfInstr n = ⟨op, 1, 0⟩ ∧ fieldsOfInstr m = ⟨op, 2, 0⟩ := by
  simp only [decode, fields]
  obtain rfl | rfl | rfl | rfl : op = 6 ∨ op = 7 ∨ op = 8 ∨ op = 9 := by bv_omega
  exacts [⟨.invertP, .invertN, .invertM, rfl, rfl, rfl, rfl⟩, ⟨.moduloP, .moduloN, .moduloM, rfl, rfl, rfl, rfl⟩,
    ⟨.mulmodP, .mulmodN, .mulmodM, rfl, rfl, rfl, rfl⟩, ⟨.montmulP, .montmulN, .montmulM, rfl, rfl, rfl, rfl⟩]

/-- R93, R99: a word that decodes to a command has that command's fields. -/
theorem fieldsOfWord_of_decode {c : Word} {i : Instr} (decoded : decode c = .ok i) : fieldsOfWord c = fieldsOfInstr i := by
  by_cases zero : (fieldsOfWord c).zero = 0
  case neg => rw [decode_of_zeroFieldSet zero] at decoded; cases decoded
  have fields := fieldsOfWord_of_zero zero
  generalize (fieldsOfWord c).op = op, (fieldsOfWord c).msel = msel at fields
  rw [fields]
  obtain outside | ⟨lower, upper⟩ | ⟨lower, upper⟩ :
    (op.toNat = 0 ∨ 10 ≤ op.toNat) ∨ (1 ≤ op.toNat ∧ op.toNat ≤ 5) ∨ (6 ≤ op.toNat ∧ op.toNat ≤ 9) := by omega
  · rw [decode_of_noOperation fields outside] at decoded; cases decoded
  · obtain ⟨j, rule, own⟩ := decode_of_pointOperation fields lower upper
    rw [rule] at decoded
    obtain ⟨rfl, rfl⟩ := pointOnly_eq_ok_iff.1 decoded
    exact own.symm
  · obtain ⟨p, n, m, rule, ownP, ownN, ownM⟩ := decode_of_fieldOperation fields lower upper
    rw [rule] at decoded
    obtain ⟨rfl, rfl⟩ | ⟨rfl, rfl⟩ | ⟨rfl, rfl⟩ := bySelect_eq_ok_iff.1 decoded
    exacts [ownP.symm, ownN.symm, ownM.symm]

/-! ### The statements on command words -/

/-- Settles O1: a decoded word is packed from the fields of its command, and the decoder reads back every encoding. -/
theorem decodeInvertsEncode : Obligations.DecodeInvertsEncode := by
  intro c i
  constructor
  · intro decoded
    rw [encode, ← fieldsOfWord_of_decode decoded, packFields_fieldsOfWord]
  · rintro rfl
    exact decode_encode i

/-- The commands in the order of the table of R93. -/
def commands : List Instr :=
  [.identity, .add, .double, .mulscalar, .mulgen, .invertP, .invertN, .invertM, .moduloP, .moduloN, .moduloM,
    .mulmodP, .mulmodN, .mulmodM, .montmulP, .montmulN, .montmulM]

theorem mem_commands (i : Instr) : i ∈ commands := by
  cases i <;> decide

/-- Settles O2: the table pairs every command with its encoding, and those are the words that decode (O1). -/
theorem legalCommandWordsExactly : Obligations.LegalCommandWordsExactly := by
  intro c i
  change decode c = .ok i ↔ (c, i) ∈ commands.map fun j => (encode j, j)
  rw [decodeInvertsEncode c i, List.mem_map]
  constructor
  · rintro rfl
    exact ⟨i, mem_commands i, rfl⟩
  · rintro ⟨j, -, pair⟩
    obtain ⟨rfl, rfl⟩ := Prod.mk.inj pair
    rfl

/-- Settles O3: the three fields as numbers, and one equation of the decoder per clause. -/
theorem decodingRule : Obligations.DecodingRule := by
  intro c high msel op
  have highField : (fieldsOfWord c).zero.toNat = high := fieldsOfWord_zero_toNat c
  have mselField : (fieldsOfWord c).msel.toNat = msel := fieldsOfWord_msel_toNat c
  have opField : (fieldsOfWord c).op.toNat = op := fieldsOfWord_op_toNat c
  have fields (zero : high = 0) : fieldsOfWord c = ⟨(fieldsOfWord c).op, (fieldsOfWord c).msel, 0⟩ :=
    fieldsOfWord_of_zero (BitVec.eq_of_toNat_eq (highField.trans zero))
  refine ⟨fun set => ?_, fun zero outside => ?_, fun zero ⟨lower, upper⟩ select => ?_, fun zero ⟨lower, upper⟩ select => ?_,
    fun zero ⟨lower, upper⟩ select => ?_, fun zero ⟨lower, upper⟩ select => ?_⟩
  · refine decode_of_zeroFieldSet fun zero => set ?_
    rw [← highField, zero]; rfl
  · exact decode_of_noOperation (fields zero) (opField ▸ outside)
  · obtain ⟨i, rule, -⟩ := decode_of_pointOperation (fields zero) (opField ▸ lower) (opField ▸ upper)
    rw [rule, pointOnly, if_neg]
    intro none
    rw [none] at mselField
    exact select mselField.symm
  · obtain ⟨p, n, m, rule, -⟩ := decode_of_fieldOperation (fields zero) (opField ▸ lower) (opField ▸ upper)
    have three : (fieldsOfWord c).msel = 3 := BitVec.eq_of_toNat_eq (mselField.trans select)
    rw [rule, three]; rfl
  · obtain ⟨i, rule, -⟩ := decode_of_pointOperation (fields zero) (opField ▸ lower) (opField ▸ upper)
    exact ⟨i, rule.trans (pointOnly_eq_ok_iff.2 ⟨BitVec.eq_of_toNat_eq (mselField.trans select), rfl⟩)⟩
  · obtain ⟨p, n, m, rule, -⟩ := decode_of_fieldOperation (fields zero) (opField ▸ lower) (opField ▸ upper)
    simp only [rule, bySelect_eq_ok_iff]
    obtain h | h | h : (fieldsOfWord c).msel = 0 ∨ (fieldsOfWord c).msel = 1 ∨ (fieldsOfWord c).msel = 2 := by bv_omega
    exacts [⟨p, .inl ⟨h, rfl⟩⟩, ⟨n, .inr (.inl ⟨h, rfl⟩)⟩, ⟨m, .inr (.inr ⟨h, rfl⟩)⟩]

/-- Settles O4: four of the words are encodings, and OP = 0 is no operation. -/
theorem sampleCommandWordsDecode : Obligations.SampleCommandWordsDecode :=
  ⟨decode_encode .add, decode_encode .mulscalar, decode_encode .invertN, decode_encode .montmulM,
    decode_of_noOperation (op := 0) (msel := 0) rfl (.inl rfl)⟩

/-! ### A WAIT -/

/-- R34: bit 0 of STATUS is BUSY. -/
theorem memRead_status_busy (e : Engine) : (memRead 0x01 e).getLsbD 0 = busy e := by
  rw [memRead_status, statusWord, BitVec.getLsbD_append]
  simp

theorem busy_of_idle {e : Engine} (idle : e.phase = .idle) : busy e = false := by rw [busy, idle]; rfl

theorem busy_of_busy {e : Engine} (inFlight : e.phase = .busy) : busy e = true := by rw [busy, inFlight]; rfl

/-- The WAIT at the head of the script is over within n steps: the engine is IDLE, and the last value read, which shows BUSY = 0, is
the script's status. -/
def waitEndsWithin (rest : List HostOp) (n : Nat) (s : State) : Prop :=
  ∃ k t v past, k ≤ n ∧ runSteps k s = .next t ∧ t.host.script = rest ∧ t.engine.phase = .idle ∧
    t.host.recorded = .status v :: .word 0x01 v :: past ∧ v = memRead 0x01 t.engine ∧ v.getLsbD 0 = false

theorem waitEndsWithin_of_step {rest : List HostOp} {n : Nat} {s t : State} (first : step s = .next t)
    (later : waitEndsWithin rest n t) : waitEndsWithin rest (n + 1) s := by
  obtain ⟨k, u, v, past, bound, run, ended⟩ := later
  exact ⟨k + 1, u, v, past, by omega, by rw [runSteps_succ_of_step first, run], ended⟩

theorem waitEndsWithin_mono {rest : List HostOp} {n m : Nat} {s : State} (le : n ≤ m) (h : waitEndsWithin rest n s) :
    waitEndsWithin rest m s := by
  obtain ⟨k, t, v, past, bound, ended⟩ := h
  exact ⟨k, t, v, past, bound.trans le, ended⟩

theorem hostTurn_of_poll {s : State} {rest : List HostOp} (script : s.host.script = .poll :: rest) :
    hostTurn s = hostPoll rest s := by
  simp only [hostTurn, script]

/-- R97: with the engine IDLE the host's next poll is the last. -/
theorem waitEndsWithin_of_idle {rest : List HostOp} {s : State} (script : s.host.script = .poll :: rest)
    (idle : s.engine.phase = .idle) (turn : nextTurn s = .host) : waitEndsWithin rest 1 s := by
  have notBusy : (memRead 0x01 s.engine).getLsbD 0 = false := by rw [memRead_status_busy, busy_of_idle idle]
  have poll : step s = .next (hostRecord (.status (memRead 0x01 s.engine)) (hostRead 0x01 rest (takeTurn s))) := by
    rw [step_of_hostTurn turn, hostTurn_of_poll (s := takeTurn s) script, hostPoll_of_idle (s := takeTurn s) rest notBusy,
      takeTurn_engine]
  exact ⟨1, _, _, _, le_rfl, (runSteps_one s).trans poll, rfl, idle, rfl, rfl, notBusy⟩

/-- R97: while BUSY the host polls again. -/
theorem hostTurn_of_poll_busy {rest : List HostOp} {s : State} (script : s.host.script = .poll :: rest)
    (inFlight : s.engine.phase = .busy) : (hostTurn s).host.script = .poll :: rest := by
  rw [hostTurn_of_poll script, hostPoll_of_busy rest (by rw [memRead_status_busy, busy_of_busy inFlight]), hostRead_host]

/-- A turn that does not end the WAIT leaves it at the head of the script and takes a turn off the schedule; an engine's turn
leaves the engine IDLE. -/
theorem step_of_waiting {rest : List HostOp} {s : State} (script : s.host.script = .poll :: rest)
    (waiting : nextTurn s = .host → s.engine.phase = .busy) :
    ∃ t, step s = .next t ∧ t.host.script = .poll :: rest ∧ t.schedule = s.schedule.tail ∧
      (nextTurn s = .engine → t.engine.phase = .idle) := by
  cases turn : nextTurn s with
  | host =>
    exact ⟨_, step_of_hostTurn turn, hostTurn_of_poll_busy (s := takeTurn s) script (waiting turn), (hostTurn_spec _).2, nofun⟩
  | reset => exact ⟨resetEngine (takeTurn s), by rw [step, turn], script, rfl, nofun⟩
  | engine =>
    rw [step_of_engineTurn turn]
    cases phase : s.engine.phase with
    | idle => exact ⟨_, engineTurn_of_idle (s := takeTurn s) phase, script, rfl, fun _ => phase⟩
    | busy =>
      obtain ⟨-, -, idle, -⟩ := complete_spec (outcomeInFlight s.engine) s.engine
      exact ⟨_, engineTurn_of_busy (s := takeTurn s) phase, script, rfl, fun _ => idle⟩

/-- R97, R226: every scheduled turn ends the WAIT or leaves one turn less; after them the command in flight completes, and the next
poll is the last. -/
theorem waitEndsWithin_schedule (rest : List HostOp) (turns : List Turn) :
    ∀ s : State, s.host.script = .poll :: rest → s.schedule = turns → waitEndsWithin rest (turns.length + 2) s := by
  induction turns with
  | nil =>
    intro s script schedule
    have turn : nextTurn s = if busy s.engine then .engine else .host := by rw [nextTurn, schedule]
    cases phase : s.engine.phase with
    | idle =>
      rw [busy_of_idle phase] at turn
      exact waitEndsWithin_mono (by decide) (waitEndsWithin_of_idle script phase turn)
    | busy =>
      rw [busy_of_busy phase] at turn
      obtain ⟨t, next, script', schedule', idle⟩ := step_of_waiting script fun _ => phase
      have turn' : nextTurn t = .host := by
        simp only [nextTurn, schedule', schedule, List.tail_nil, busy_of_idle (idle turn), Bool.false_eq_true, if_false]
      exact waitEndsWithin_of_step next (waitEndsWithin_of_idle script' (idle turn) turn')
  | cons turn turns ih =>
    intro s script schedule
    have head : nextTurn s = turn := by rw [nextTurn, schedule]
    by_cases last : nextTurn s = .host ∧ s.engine.phase = .idle
    · exact waitEndsWithin_mono (by omega) (waitEndsWithin_of_idle script last.2 last.1)
    · have waiting (host : nextTurn s = .host) : s.engine.phase = .busy := by
        cases phase : s.engine.phase with
        | idle => exact absurd ⟨host, phase⟩ last
        | busy => rfl
      obtain ⟨t, next, script', schedule', -⟩ := step_of_waiting script waiting
      exact waitEndsWithin_of_step next (ih t script' (by rw [schedule', schedule]; rfl))

/-- Settles O18: by induction on the schedule. -/
theorem waitTerminates : Obligations.WaitTerminates :=
  fun s rest script => waitEndsWithin_schedule rest s.schedule s script rfl

/-! ### Runs of the host's operations

With nothing scheduled and the engine IDLE every turn is the host's (log 1), so a script runs operation by operation. -/

/-- With nothing scheduled, as many steps as there are operations take the operations off the script, the engine from e to e', and the
records from past to past'. -/
def performs (ops : List HostOp) (e : Engine) (past : List HostRecord) (e' : Engine) (past' : List HostRecord) : Prop :=
  ∀ rest : List HostOp, runSteps ops.length ⟨e, ⟨ops ++ rest, past⟩, []⟩ = .next ⟨e', ⟨rest, past'⟩, []⟩

theorem performs_run {ops rest : List HostOp} {s : State} {e : Engine} {past : List HostRecord} (schedule : s.schedule = [])
    (script : s.host.script = ops ++ rest) (h : performs ops s.engine s.host.recorded e past) :
    runSteps ops.length s = .next ⟨e, ⟨rest, past⟩, []⟩ := by
  rw [← h rest, ← script, ← schedule]

theorem runSteps_add {n : Nat} {t : State} :
    ∀ {m : Nat} {s : State}, runSteps m s = .next t → runSteps (m + n) s = runSteps n t := by
  intro m
  induction m with
  | zero =>
    intro s h
    obtain rfl : s = t := by simpa only [runSteps, Host.Outcome.next.injEq] using h
    rw [Nat.zero_add]
  | succ m ih =>
    intro s h
    rw [Nat.add_right_comm]
    cases first : step s with
    | next u =>
      rw [runSteps_succ_of_step first] at h ⊢
      exact ih h
    | fault r => nomatch r
    | refused r => simp [runSteps, first] at h

theorem performs_nil (e : Engine) (past : List HostRecord) : performs [] e past e past := fun _ => rfl

theorem performs_append {ops ops' : List HostOp} {e e' e'' : Engine} {past past' past'' : List HostRecord}
    (first : performs ops e past e' past') (second : performs ops' e' past' e'' past'') :
    performs (ops ++ ops') e past e'' past'' := by
  intro rest
  rw [List.length_append, List.append_assoc, runSteps_add (first _), second]

/-- One operation is one turn of the host. -/
theorem performs_singleton {op : HostOp} {e e' : Engine} {past past' : List HostRecord} (idle : e.phase = .idle)
    (turn : ∀ rest, hostTurn ⟨e, ⟨op :: rest, past⟩, []⟩ = ⟨e', ⟨rest, past'⟩, []⟩) : performs [op] e past e' past' := by
  intro rest
  have host : nextTurn ⟨e, ⟨op :: rest, past⟩, []⟩ = .host := by
    simp only [nextTurn, busy_of_idle idle, Bool.false_eq_true, if_false]
  have next : step ⟨e, ⟨op :: rest, past⟩, []⟩ = .next (hostTurn ⟨e, ⟨op :: rest, past⟩, []⟩) := step_of_hostTurn host
  exact (runSteps_one _).trans (next.trans (congrArg _ (turn rest)))

section
variable {e : Engine} (idle : e.phase = .idle) (past : List HostRecord)
include idle

theorem performs_write (w : WordAddr) (v : Word) : performs [.write w v] e past (memWrite w v e) past :=
  performs_singleton idle fun _ => rfl

theorem performs_read (w : WordAddr) : performs [.read w] e past e (.word w (memRead w e) :: past) :=
  performs_singleton idle fun _ => rfl

theorem performs_readLast (r : DataReg) :
    performs [.readLast r] e past e
      (.value r (valueRead (.word (wordAddr r 7) (memRead (wordAddr r 7) e) :: past)) ::
        .word (wordAddr r 7) (memRead (wordAddr r 7) e) :: past) :=
  performs_singleton idle fun _ => rfl

theorem performs_writeRecorded (w : WordAddr) (j : Nat) (r : DataReg) (v : Word256) :
    performs [.writeRecorded w j] e (.value r v :: past) (memWrite w (getWord v j) e) (.value r v :: past) :=
  performs_singleton idle fun _ => rfl

theorem performs_writePointFlags (w : WordAddr) (v : Word) :
    performs [.writePointFlags] e (.word w v :: past) (memWrite 0x03 (pointFlagsWord v) e) (.word w v :: past) :=
  performs_singleton idle fun _ => rfl

end

/-! ### The line RD256 -/

/-- R97: what the reads of the first n words of a register record, newest first. -/
def wordsRecorded (r : DataReg) (e : Engine) (n : Nat) : List HostRecord :=
  ((List.range n).map fun j => HostRecord.word (wordAddr r j) (getWord (readReg r e) j)).reverse

theorem wordsRecorded_succ (r : DataReg) (e : Engine) (n : Nat) :
    wordsRecorded r e (n + 1) = .word (wordAddr r n) (getWord (readReg r e) n) :: wordsRecorded r e n := by
  simp only [wordsRecorded, List.range_succ, List.map_append, List.reverse_append, List.map_singleton, List.reverse_singleton,
    List.singleton_append]

theorem performs_readFirstWords (r : DataReg) {e : Engine} (idle : e.phase = .idle) (past : List HostRecord) {n : Nat}
    (le : n ≤ 8) : performs ((List.range n).map fun j => .read (wordAddr r j)) e past e (wordsRecorded r e n ++ past) := by
  induction n with
  | zero => exact performs_nil e past
  | succ n ih =>
    have word : memRead (wordAddr r n) e = getWord (readReg r e) n := memRead_wordAddr r le e
    rw [List.range_succ, List.map_append, wordsRecorded_succ, ← word]
    exact performs_append (ih (by omega)) (performs_read idle _ _)

/-- R97: after its eight words the value of the register is recorded. -/
theorem performs_readWords (r : DataReg) {e : Engine} (idle : e.phase = .idle) (past : List HostRecord) :
    performs (readWords r) e past e (.value r (readReg r e) :: wordsRecorded r e 8 ++ past) := by
  have word : memRead (wordAddr r 7) e = getWord (readReg r e) 7 := memRead_wordAddr r (by decide) e
  have sum : valueRead (wordsRecorded r e 8 ++ past) = readReg r e := valueRead_words (wordAddr r) (readReg r e) past
  have last := performs_readLast idle (wordsRecorded r e 7 ++ past) r
  rw [word, ← List.cons_append, ← wordsRecorded_succ, sum] at last
  exact performs_append (performs_readFirstWords r idle past (by decide)) last

/-! ### The lines WR256 and MOV256 -/

theorem scriptWritable_eq_hostWritable (r : DataReg) : r.scriptWritable = hostWritable r := by
  cases r <;> rfl

theorem regNumber_le_of_hostWritable {r : DataReg} (writable : hostWritable r = true) : regNumber r ≤ 11 := by
  have number := (hostWritable_iff r).1 writable
  omega

theorem setReg_readReg (r : DataReg) (e : Engine) : setReg r (readReg r e) e = e := by
  cases r <;> rfl

theorem setReg_setReg (r : DataReg) (v v' : Word256) (e : Engine) : setReg r v (setReg r v' e) = setReg r v e := by
  cases r <;> rfl

/-- The value x with its first n words replaced by those of v. -/
def replaceWords (v x : Word256) : Nat → Word256
  | 0 => x
  | n + 1 => setWord (replaceWords v x n) n (getWord v n)

theorem replaceWords_getLsbD (v x : Word256) {n : Nat} (le : n ≤ 8) (i : Nat) :
    (replaceWords v x n).getLsbD i = if i < 32 * n then v.getLsbD i else x.getLsbD i := by
  induction n with
  | zero => rfl
  | succ n ih =>
    rw [replaceWords, setWord_getLsbD _ le, ih (by omega), getWord_getLsbD]
    split
    · next inside =>
      obtain ⟨lower, upper⟩ := inside
      rw [decide_eq_true (by omega), Bool.true_and, Nat.add_sub_cancel' lower, if_pos (by omega)]
    · next outside =>
      have same : i < 32 * (n + 1) ↔ i < 32 * n := by omega
      simp only [same]

theorem replaceWords_all (v x : Word256) : replaceWords v x 8 = v :=
  BitVec.eq_of_getLsbD_eq fun i width => by rw [replaceWords_getLsbD v x le_rfl, if_pos width]

theorem memWrite_wordAddr {r : DataReg} (writable : hostWritable r = true) {e : Engine} (idle : e.phase = .idle) {j : Nat}
    (hj : j < 8) (v : Word) : memWrite (wordAddr r j) v e = setReg r (setWord (readReg r e) j v) e := by
  rw [memWrite_register idle (regOfAddr_of_toNat hj (wordAddr_toNat r hj)) writable,
    wordIndex_of_toNat hj (wordAddr_toNat r hj)]

/-- R97: operations that write the words of v one after the other, wherever they take them from, leave v in the register. -/
theorem performs_wordWrites {r : DataReg} (writable : hostWritable r = true) (v : Word256) (op : Nat → HostOp)
    {past : List HostRecord}
    (single : ∀ (j : Nat) (e : Engine), e.phase = .idle → performs [op j] e past (memWrite (wordAddr r j) (getWord v j) e) past)
    {e : Engine} (idle : e.phase = .idle) : performs ((List.range 8).map op) e past (setReg r v e) past := by
  suffices first : ∀ n ≤ 8, performs ((List.range n).map op) e past (setReg r (replaceWords v (readReg r e) n) e) past by
    have all := first 8 le_rfl
    rwa [replaceWords_all] at all
  intro n le
  induction n with
  | zero => rw [replaceWords, setReg_readReg]; exact performs_nil e past
  | succ n ih =>
    have last := single n (setReg r (replaceWords v (readReg r e) n) e) (by rw [setReg_phase, idle])
    rw [memWrite_wordAddr writable (by rw [setReg_phase, idle]) le, setReg_setReg, readReg_setReg,
      if_pos ⟨rfl, regNumber_le_of_hostWritable writable⟩] at last
    rw [List.range_succ, List.map_append]
    exact performs_append (ih (by omega)) last

theorem performs_writeWords {r : DataReg} (writable : hostWritable r = true) (v : Word256) {e : Engine} (idle : e.phase = .idle)
    (past : List HostRecord) : performs (writeWords r v) e past (setReg r v e) past :=
  performs_wordWrites writable v (fun j => .write (wordAddr r j) (getWord v j))
    (fun j _ idle => performs_write idle past (wordAddr r j) (getWord v j)) idle

theorem performs_moveWords {dst : DataReg} (writable : hostWritable dst = true) (src : DataReg) {e : Engine}
    (idle : e.phase = .idle) (past : List HostRecord) :
    performs (moveWords dst src) e past (setReg dst (readReg src e) e)
      (.value src (readReg src e) :: wordsRecorded src e 8 ++ past) :=
  performs_append (performs_readWords src idle past)
    (performs_wordWrites writable (readReg src e) (fun j => .writeRecorded (wordAddr dst j) j)
      (fun j _ idle => performs_writeRecorded idle _ (wordAddr dst j) j src (readReg src e)) idle)

/-! ### The line MOVPT -/

theorem infWord_getLsbD (pinf qinf : Bool) :
    (infWord pinf qinf).getLsbD 0 = pinf ∧ (infWord pinf qinf).getLsbD 1 = qinf := by
  simp only [infWord, BitVec.getLsbD_append]
  simp

theorem ptflagsWord_getLsbD (e : Engine) : (ptflagsWord e).getLsbD 1 = e.qinf ∧ (ptflagsWord e).getLsbD 2 = e.rinf := by
  simp only [ptflagsWord, BitVec.getLsbD_append]
  simp

/-- R97, R36: the word that ends MOVPT copies RINF to PINF and keeps QINF. -/
theorem writePtflags_pointFlagsWord (e : Engine) :
    writePtflags (pointFlagsWord (ptflagsWord e)) e = { e with pinf := e.rinf } := by
  obtain ⟨qinf, rinf⟩ := ptflagsWord_getLsbD e
  obtain ⟨written0, written1⟩ := infWord_getLsbD e.rinf e.qinf
  rw [pointFlagsWord, qinf, rinf, writePtflags, written0, written1]

theorem performs_copyResultFlag {e : Engine} (idle : e.phase = .idle) (past : List HostRecord) :
    performs [.read 0x03, .writePointFlags] e past { e with pinf := e.rinf } (.word 0x03 (ptflagsWord e) :: past) := by
  have read := performs_read idle past 0x03
  have write := performs_writePointFlags idle past 0x03 (ptflagsWord e)
  rw [memWrite_ptflags idle, writePtflags_pointFlagsWord] at write
  exact performs_append read write

theorem performs_movePoint {e : Engine} (idle : e.phase = .idle) (past : List HostRecord) :
    ∃ past', performs (expandLine .movpt) e past { e with px := e.rx, py := e.ry, pinf := e.rinf } past' := by
  have moveX := performs_moveWords (dst := .px) rfl .rx idle past
  have moveY := performs_moveWords (dst := .py) rfl .ry (e := setReg .px e.rx e) idle
  have copyFlag := performs_copyResultFlag (e := setReg .py e.ry (setReg .px e.rx e)) idle
  exact ⟨_, performs_append (performs_append moveX (moveY _)) (copyFlag _)⟩

/-! ### The statements on scripts -/

/-- Settles O25: the eight writes leave v in the register, and a register is read back after it is set. -/
theorem writeRegisterScript : Obligations.WriteRegisterScript := by
  intro s reg v rest idle schedule wellFormed script
  have writable : hostWritable reg = true := (scriptWritable_eq_hostWritable reg).symm.trans wellFormed
  have run := performs_run schedule script (performs_writeWords writable v idle s.host.recorded)
  refine ⟨_, run, rfl, ?_, fun r other => ?_, rfl⟩
  · rw [readReg_setReg, if_pos ⟨rfl, regNumber_le_of_hostWritable writable⟩]
  · rw [readReg_setReg, if_neg fun same => other same.1]

/-- Settles O26: the reads record the value, and the writes take their words from that record. -/
theorem moveRegisterScript : Obligations.MoveRegisterScript := by
  refine ⟨fun s src rest idle schedule script => ?_, fun s dst src rest idle schedule wellFormed script => ?_⟩
  · exact ⟨_, performs_run schedule script (performs_readWords src idle s.host.recorded), rfl, rfl, rfl⟩
  · have writable : hostWritable dst = true := (scriptWritable_eq_hostWritable dst).symm.trans wellFormed
    exact ⟨_, performs_run schedule script (performs_moveWords writable src idle s.host.recorded), rfl, rfl⟩

/-- Settles O27: two moves of a register, and a read and a write of PTFLAGS. -/
theorem movePointScript : Obligations.MovePointScript := by
  intro s rest idle schedule script
  obtain ⟨past, moved⟩ := performs_movePoint idle s.host.recorded
  exact ⟨_, performs_run schedule script moved, rfl, rfl⟩

end Sys2Proof.Proofs
end

section
/-! PROOFS. The family 40_point_group_law: IDENTITY, ADD and DOUBLE (spec/40_point_group_law.md). First the modular inverse and the two
formulas of the group law over the integers, with the statements on single commands; then the points on the curve as Mathlib's group of
points of a Weierstrass curve over the field of p elements, with the statements on the group law. -/

namespace Sys2Proof.Proofs

open Sys2Proof.Machine

/-! ### The modular inverse -/

/-- spec/42_field_arithmetic.md R152: one iteration takes the pair of remainders one division further. -/
theorem euclidLoop_succ {r1 : Int} (more : r1 ≠ 0) (fuel : Nat) (r0 t0 t1 : Int) :
    euclidLoop (fuel + 1) r0 r1 t0 t1 = euclidLoop fuel r1 (r0 % r1) t1 (t0 - r0 / r1 * t1) := by
  rw [euclidLoop, if_neg more, Int.emod_def, mul_comm r1]

/-- R152: with enough iterations the loop ends with gcd(r0, r1) and, if t0 and t1 are coefficients of a for r0 and r1 modulo m, with
a coefficient of a for it. -/
theorem euclidLoop_spec {a m : Int} (fuel : Nat) {r0 r1 t0 t1 : Int} (nonneg0 : 0 ≤ r0) (nonneg1 : 0 ≤ r1) (enough : r1 < fuel)
    (coeff0 : m ∣ t0 * a - r0) (coeff1 : m ∣ t1 * a - r1) :
    (euclidLoop fuel r0 r1 t0 t1).1 = Int.gcd r0 r1 ∧
      m ∣ (euclidLoop fuel r0 r1 t0 t1).2 * a - (euclidLoop fuel r0 r1 t0 t1).1 := by
  induction fuel generalizing r0 r1 t0 t1 with
  | zero => omega
  | succ fuel ih =>
    by_cases last : r1 = 0
    · rw [euclidLoop, if_pos last, last, Int.gcd_zero_right]
      exact ⟨(Int.natAbs_of_nonneg nonneg0).symm, coeff0⟩
    · have upper := Int.emod_lt_of_pos r0 (show 0 < r1 by omega)
      have coeff : m ∣ (t0 - r0 / r1 * t1) * a - r0 % r1 := by
        have combined : (t0 - r0 / r1 * t1) * a - r0 % r1 = (t0 * a - r0) - r0 / r1 * (t1 * a - r1) := by
          rw [Int.emod_def]; ring
        rw [combined]
        exact dvd_sub coeff0 (coeff1.mul_left _)
      rw [euclidLoop_succ last, ← Int.gcd_emod, Int.gcd_comm]
      exact ih nonneg1 (Int.emod_nonneg r0 last) (by omega) coeff1 coeff

/-- R151, R152: for a positive modulus the loop of `invert` ends with gcd(a, m) and a coefficient of a for it. -/
theorem euclidLoop_of_modulus {m : Int} (positive : 0 < m) (a : Int) :
    (euclidLoop ((a % m).toNat + 1) m (a % m) 0 1).1 = Int.gcd a m ∧
      m ∣ (euclidLoop ((a % m).toNat + 1) m (a % m) 0 1).2 * a - Int.gcd a m := by
  have lower := Int.emod_nonneg a positive.ne'
  obtain ⟨gcd, coeff⟩ := euclidLoop_spec (a := a) (m := m) ((a % m).toNat + 1) positive.le lower (by omega)
    (t0 := 0) (t1 := 1) (by simp) (by rw [one_mul]; exact Int.dvd_self_sub_emod)
  have same : Int.gcd m (a % m) = Int.gcd a m := by rw [Int.gcd_comm, Int.gcd_emod]
  rw [same] at gcd
  exact ⟨gcd, gcd ▸ coeff⟩

/-- R151: exactly when `invert` raises ArithFail. -/
theorem invert_eq_none_iff {a m : Int} : invert a m = none ↔ m ≤ 0 ∨ modulo a m = 0 ∨ Int.gcd a m ≠ 1 := by
  rw [invert]
  by_cases nonpos : m ≤ 0
  · simp [nonpos]
  · have positive : 0 < m := by omega
    simp only [modulo_eq_emod positive, (euclidLoop_of_modulus positive a).1, nonpos, if_false, false_or]
    by_cases zero : a % m = 0
    · simp [zero]
    · simp [zero]

/-- R151: what `invert` gives is an inverse modulo m, fully reduced. -/
theorem invert_eq_some_spec {a m r : Int} (h : invert a m = some r) : 0 ≤ r ∧ r < m ∧ m ∣ a * r - 1 := by
  have success : ¬ (m ≤ 0 ∨ modulo a m = 0 ∨ Int.gcd a m ≠ 1) := by rw [← invert_eq_none_iff, h]; simp
  obtain ⟨positive, nonzero, coprime⟩ : 0 < m ∧ modulo a m ≠ 0 ∧ Int.gcd a m = 1 := by
    simpa only [not_or, not_le, not_not] using success
  obtain ⟨gcd, coeff⟩ := euclidLoop_of_modulus positive a
  rw [coprime, Nat.cast_one] at gcd coeff
  rw [modulo_eq_emod positive] at nonzero
  simp only [invert, modulo_eq_emod positive, if_neg (not_le.2 positive), if_neg nonzero, if_pos gcd, Option.some.injEq] at h
  subst h
  refine ⟨Int.emod_nonneg _ positive.ne', Int.emod_lt_of_pos _ positive, ?_⟩
  generalize (euclidLoop ((a % m).toNat + 1) m (a % m) 0 1).2 = t at coeff
  have split : a * (t % m) - 1 = (t * a - 1) - a * (t - t % m) := by ring
  rw [split]
  exact dvd_sub coeff (Int.dvd_self_sub_emod.mul_left a)

/-- The slope of R112 and R113: a numerator times the inverse of d is the one reduced quotient. -/
theorem modulo_mul_of_invert {d inv n q m : Int} (inverse : invert d m = some inv) (lower : 0 ≤ q) (upper : q < m)
    (quotient : (q * d - n) % m = 0) : modulo (n * inv) m = q := by
  obtain ⟨-, -, unit⟩ := invert_eq_some_spec inverse
  have congruent : m ∣ n * inv - q := by
    have combined : n * inv - q = q * (d * inv - 1) - (q * d - n) * inv := by ring
    rw [combined]
    exact dvd_sub (unit.mul_left q) ((Int.dvd_of_emod_eq_zero quotient).mul_right inv)
  rw [modulo_eq_emod (by omega), Int.emod_eq_emod_iff_emod_sub_eq_zero.2 (Int.emod_eq_zero_of_dvd congruent),
    Int.emod_eq_of_lt lower upper]

/-! ### Arithmetic modulo p -/

theorem primeP_pos : 0 < primeP := by decide +kernel

/-- Modulo the prime p, what is not a multiple of p is invertible. -/
theorem gcd_primeP_eq_one_iff (a : Int) : Int.gcd a primeP = 1 ↔ a % primeP ≠ 0 := by
  rw [primeP, Int.gcd_comm, Int.gcd, Int.natAbs_natCast, ← Nat.coprime_iff_gcd_eq_one,
    Laws.curveP_prime.coprime_iff_not_dvd, ← Int.natCast_dvd, Int.dvd_iff_emod_eq_zero]

theorem invert_primeP_eq_none_iff (a : Int) : invert a primeP = none ↔ a % primeP = 0 := by
  rw [invert_eq_none_iff, modulo_eq_emod primeP_pos, ne_eq, gcd_primeP_eq_one_iff, not_not, or_self, or_iff_right]
  exact not_le.2 primeP_pos

/-- Twice a register value is a multiple of the odd prime p only where the value is 0 or p: it is below 2p. -/
theorem two_mul_toNat_emod_primeP_eq_zero_iff (v : Word256) : 2 * (v.toNat : Int) % primeP = 0 ↔ v = 0 ∨ v = curveP := by
  have odd : Int.gcd primeP 2 = 1 := by decide +kernel
  have bound : v.toNat < 2 * curveP.toNat := v.isLt.trans (by decide +kernel)
  constructor
  · intro multiple
    have divides : curveP.toNat ∣ v.toNat :=
      Int.natCast_dvd_natCast.1 (Int.dvd_of_dvd_mul_right_of_gcd_one (Int.dvd_of_emod_eq_zero multiple) odd)
    obtain ⟨k, product⟩ := divides
    rw [product, mul_comm] at bound
    obtain rfl | rfl : k = 0 ∨ k = 1 := by
      have := lt_of_mul_lt_mul_right bound (Nat.zero_le _)
      omega
    · exact .inl (BitVec.eq_of_toNat_eq product)
    · exact .inr (BitVec.eq_of_toNat_eq (product.trans (mul_one _)))
  · rintro (rfl | rfl)
    · rfl
    · exact Int.mul_emod_left 2 _

/-! ### The two formulas of the group law -/

/-- R113: DOUBLE of an affine point fails exactly where 2·y1 has no inverse. -/
theorem double_affine_eq_none_iff (x y : Int) : double (.affine x y) = none ↔ 2 * y % primeP = 0 := by
  rw [double, Option.map_eq_none_iff, invert_primeP_eq_none_iff]

/-- R113: the double of an affine point is never the identity. -/
theorem double_affine_ne_infinity (x y : Int) : double (.affine x y) ≠ some .infinity := by
  rw [double]
  cases invert (2 * y) primeP <;> simp [thirdPoint]

/-- R113: the tangent at an affine point, its slope given by its congruence. -/
theorem double_of_slope {x y lam : Int} (unit : 2 * y % primeP ≠ 0) (lower : 0 ≤ lam) (upper : lam < primeP)
    (slope : (lam * (2 * y) - 3 * x * x) % primeP = 0) : double (.affine x y) = some (thirdPoint lam x y x) := by
  obtain ⟨inv, inverse⟩ := Option.ne_none_iff_exists'.1 (mt (invert_primeP_eq_none_iff (2 * y)).1 unit)
  rw [double, inverse, Option.map_some, modulo_mul_of_invert inverse lower upper slope]

theorem add_infinity_left (P : Point) : add .infinity P = some P := rfl

theorem add_infinity_right (P : Point) : add P .infinity = some P := by cases P <;> rfl

/-- R115: equal operands are the case of step 2. -/
theorem add_self (P : Point) : add P P = double P := by
  cases P with
  | infinity => rfl
  | affine x y => rw [add, if_pos ⟨rfl, rfl⟩]

/-- R112 step 3. -/
theorem add_of_opposite {x y1 y2 : Int} (ne : y1 ≠ y2) (opposite : (y1 + y2) % primeP = 0) :
    add (.affine x y1) (.affine x y2) = some .infinity := by
  rw [add, if_neg fun same => ne same.2, modulo_eq_emod primeP_pos, if_pos ⟨rfl, opposite⟩]

/-- R112 step 4: what is left after steps 0 to 3. -/
theorem add_of_notOpposite {x1 y1 x2 y2 : Int} (ne : ¬ (x1 = x2 ∧ y1 = y2))
    (notOpposite : ¬ (x1 = x2 ∧ (y1 + y2) % primeP = 0)) :
    add (.affine x1 y1) (.affine x2 y2) = (invert (x2 - x1) primeP).map fun inv =>
      thirdPoint (modulo ((y2 - y1) * inv) primeP) x1 y1 x2 := by
  rw [add, if_neg ne, modulo_eq_emod primeP_pos, if_neg notOpposite]

/-- R112 step 4: the chord through two affine points, its slope given by its congruence. -/
theorem add_of_slope {x1 y1 x2 y2 lam : Int} (unit : (x2 - x1) % primeP ≠ 0) (lower : 0 ≤ lam) (upper : lam < primeP)
    (slope : (lam * (x2 - x1) - (y2 - y1)) % primeP = 0) :
    add (.affine x1 y1) (.affine x2 y2) = some (thirdPoint lam x1 y1 x2) := by
  have ne : x1 ≠ x2 := by rintro rfl; simp at unit
  obtain ⟨inv, inverse⟩ := Option.ne_none_iff_exists'.1 (mt (invert_primeP_eq_none_iff (x2 - x1)).1 unit)
  rw [add_of_notOpposite (fun same => ne same.1) (fun same => ne same.1), inverse, Option.map_some,
    modulo_mul_of_invert inverse lower upper slope]

/-- R112: the three ways in which the addition of affine points fails, by its steps 2, 3 and 4. -/
theorem add_affine_eq_none_iff (x1 y1 x2 y2 : Int) :
    add (.affine x1 y1) (.affine x2 y2) = none ↔
      (x1 = x2 ∧ y1 = y2 ∧ 2 * y1 % primeP = 0) ∨ (x1 = x2 ∧ y1 ≠ y2 ∧ (y1 + y2) % primeP ≠ 0) ∨
        (x1 ≠ x2 ∧ (x2 - x1) % primeP = 0) := by
  by_cases sameX : x1 = x2
  · subst sameX
    by_cases sameY : y1 = y2
    · subst sameY; simp [add_self, double_affine_eq_none_iff]
    · by_cases opposite : (y1 + y2) % primeP = 0
      · simp [add_of_opposite sameY opposite, sameY, opposite]
      · simp [add_of_notOpposite, sameY, opposite, invert_primeP_eq_none_iff]
  · simp [add_of_notOpposite, sameX, invert_primeP_eq_none_iff]

/-- R112, R113: the third point in remainders. -/
theorem thirdPoint_eq (lam x1 y1 x2 : Int) :
    thirdPoint lam x1 y1 x2 =
      .affine ((lam * lam - x1 - x2) % primeP) ((lam * (x1 - (lam * lam - x1 - x2) % primeP) - y1) % primeP) := by
  simp only [thirdPoint, modulo_eq_emod primeP_pos]

/-! ### The commit of a point -/

/-- R23: the coordinates of an affine point fit the 256-bit registers. -/
def fitsRegisters : Point → Prop
  | .infinity => True
  | .affine x y => (0 ≤ x ∧ x < 2 ^ 256) ∧ 0 ≤ y ∧ y < 2 ^ 256

theorem fitsRegisters_pointOf (inf : Bool) (x y : Word256) : fitsRegisters (pointOf inf x y) := by
  cases inf with
  | true => trivial
  | false => exact ⟨⟨by omega, mod_cast x.isLt⟩, by omega, mod_cast y.isLt⟩

theorem fitsRegisters_of_lt_primeP {x y : Int} (hx : 0 ≤ x ∧ x < primeP) (hy : 0 ≤ y ∧ y < primeP) :
    fitsRegisters (.affine x y) := by
  have bound : primeP < 2 ^ 256 := by decide +kernel
  exact ⟨⟨hx.1, hx.2.trans bound⟩, hy.1, hy.2.trans bound⟩

theorem fitsRegisters_thirdPoint (lam x1 y1 x2 : Int) : fitsRegisters (thirdPoint lam x1 y1 x2) := by
  rw [thirdPoint_eq]
  exact fitsRegisters_of_lt_primeP ⟨Int.emod_nonneg _ primeP_pos.ne', Int.emod_lt_of_pos _ primeP_pos⟩
    ⟨Int.emod_nonneg _ primeP_pos.ne', Int.emod_lt_of_pos _ primeP_pos⟩

theorem toNat_ofInt_of_fits {x : Int} (fits : 0 ≤ x ∧ x < 2 ^ 256) : ((BitVec.ofInt 256 x).toNat : Int) = x := by
  rw [BitVec.toNat_ofInt, Int.toNat_of_nonneg (Int.emod_nonneg _ (by norm_num))]
  exact Int.emod_eq_of_lt fits.1 (mod_cast fits.2)

/-- R8, R23: a committed point reads back as it was computed. -/
theorem ptR_complete_pt {v : Point} (fits : fitsRegisters v) (e : Engine) : ptR (complete (.pt v) e) = v := by
  cases v with
  | infinity => rfl
  | affine x y =>
    obtain ⟨fitsX, fitsY⟩ := fits
    rw [ptR, complete_pt, endCommand_rinf, endCommand_rx, endCommand_ry, commitPoint_affine_rinf, commitPoint_affine_rx,
      commitPoint_affine_ry, pointOf, if_neg Bool.false_ne_true, toNat_ofInt_of_fits fitsX, toNat_ofInt_of_fits fitsY]

/-- R43: a point command whose evaluation gives a point commits it. -/
theorem finish_commits {v : Point} (fits : fitsRegisters v) (s : State) :
    ∃ t, finish (pointResult (some v)) s = .next t ∧ committedPoint v s t := by
  obtain ⟨inputs, done, idle, -⟩ := complete_spec (.pt v) s.engine
  refine ⟨_, rfl, ptR_complete_pt fits s.engine, ?_, ⟨by simp, done, idle⟩, inputs, complete_pointResult_s (some v) s.engine,
    rfl, rfl⟩
  rintro rfl
  exact ⟨rfl, rfl⟩

/-- R187: the completion of an error writes ERR, DONE and PHASE. -/
theorem endedInError_complete (code : ErrCode) (s : State) :
    endedInError code s { s with engine := complete (.err code) s.engine } := by
  obtain ⟨inputs, done, idle, -⟩ := complete_spec (.err code) s.engine
  exact ⟨⟨rfl, done, idle⟩, inputs, ⟨rfl, rfl, rfl⟩, rfl, rfl, rfl⟩

/-- R43, R187: a point command fails exactly where its evaluation gives no point, and then only ERR, DONE and PHASE change. -/
theorem finish_fails_iff {r : Option Point} {condition : Prop} (fails : r = none ↔ condition) (s : State) :
    ∃ t, finish (pointResult r) s = .next t ∧ t.engine.err ≠ .illegalCmd ∧
      (t.engine.err = .arithFail → endedInError .arithFail s t) ∧ (t.engine.err = .arithFail ↔ condition) := by
  rw [← fails]
  cases r with
  | none => exact ⟨_, rfl, by simp, fun _ => endedInError_complete .arithFail s, by simp⟩
  | some v => exact ⟨_, rfl, by simp, by simp, by simp⟩

/-- R8: a point register read through its flag determines the flag, and the coordinates where the flag is 0. -/
theorem pointOf_eq_pointOf_iff {inf inf' : Bool} {x y x' y' : Word256} :
    pointOf inf x y = pointOf inf' x' y' ↔ inf = inf' ∧ (inf' = false → x = x' ∧ y = y') := by
  cases inf <;> cases inf' <;> simp [pointOf, BitVec.toNat_inj]

/-! ### The statements on single commands -/

/-- Settles O28: the identity is committed, whatever the registers hold. -/
theorem identityCommitsInfinity : Obligations.IdentityCommitsInfinity := fun s => finish_commits (v := .infinity) trivial s

/-- Settles O29: one operand is the identity, and the register point that is committed determines RINF, RX and RY. -/
theorem addIdentityLaw : Obligations.AddIdentityLaw := by
  refine ⟨fun P => ⟨add_infinity_right P, add_infinity_left P⟩, fun s => ⟨fun identity => ?_, fun identity => ?_⟩⟩
  · obtain ⟨t, run, committed⟩ := finish_commits (fitsRegisters_pointOf s.engine.pinf s.engine.px s.engine.py) s
    have result := committed.1
    rw [ptR, pointOf_eq_pointOf_iff] at result
    refine ⟨t, ?_, committed, result⟩
    rw [exec_add, ptQ, identity, pointOf, if_pos rfl, add_infinity_right]
    exact run
  · obtain ⟨t, run, committed⟩ := finish_commits (fitsRegisters_pointOf s.engine.qinf s.engine.qx s.engine.qy) s
    have result := committed.1
    rw [ptR, pointOf_eq_pointOf_iff] at result
    refine ⟨t, ?_, committed, result⟩
    rw [exec_add, ptP, identity, pointOf, if_pos rfl, add_infinity_left]
    exact run

/-- R8: an affine operand is the point of its two registers. -/
theorem pointOf_false (x y : Word256) : pointOf false x y = .affine x.toNat y.toNat := rfl

/-- Settles O30: step 3 of the addition. -/
theorem addOfOppositePoints : Obligations.AddOfOppositePoints := by
  intro s affineP affineQ sameX ne opposite
  rw [exec_add, ptP, ptQ, affineP, affineQ, sameX, pointOf_false, pointOf_false,
    add_of_opposite (mt (fun same => BitVec.eq_of_toNat_eq (Int.ofNat_inj.1 same)) ne) opposite]
  exact finish_commits (v := .infinity) trivial s

/-- Settles O31: step 4 of the addition, the chord's slope being the one reduced quotient. -/
theorem addByTheChord : Obligations.AddByTheChord := by
  rintro s x1 y1 x2 y2 lam affineP affineQ rfl rfl rfl rfl - unit lower upper slope
  rw [gcd_primeP_eq_one_iff] at unit
  intro x3 y3
  rw [exec_add, ptP, ptQ, affineP, affineQ, pointOf_false, pointOf_false, add_of_slope unit lower upper slope, ← thirdPoint_eq]
  exact finish_commits (fitsRegisters_thirdPoint ..) s

/-- Settles O32: step 0 for the identity, and the tangent's slope as the one reduced quotient. -/
theorem doubleByTheTangent : Obligations.DoubleByTheTangent := by
  constructor
  · intro s identity
    rw [exec_double, ptP, identity]
    exact finish_commits (v := .infinity) trivial s
  · rintro s x1 y1 lam affine rfl rfl unit lower upper slope x3 y3
    rw [gcd_primeP_eq_one_iff] at unit
    rw [exec_double, ptP, affine, pointOf_false, double_of_slope unit lower upper slope, ← thirdPoint_eq]
    exact finish_commits (fitsRegisters_thirdPoint ..) s

/-- Settles O33: with an identity operand ADD never fails; for affine operands, step by step, on the registers' values. -/
theorem addFailsExactly : Obligations.AddFailsExactly := by
  intro s
  rw [exec_add]
  refine finish_fails_iff ?_ s
  cases infP : s.engine.pinf with
  | true => simp [ptP, infP, pointOf, add_infinity_left]
  | false =>
    cases infQ : s.engine.qinf with
    | true => simp [ptQ, infQ, pointOf, add_infinity_right]
    | false =>
      rw [ptP, ptQ, infP, infQ, pointOf_false, pointOf_false, add_affine_eq_none_iff]
      simp only [Nat.cast_inj, BitVec.toNat_inj, ne_eq, true_and]

/-- Settles O34: 2·y1 is a multiple of p only at y1 = 0 and y1 = p. -/
theorem doubleFailsExactly : Obligations.DoubleFailsExactly := by
  intro s
  rw [exec_double]
  refine finish_fails_iff ?_ s
  cases inf : s.engine.pinf with
  | true => simp [ptP, inf, pointOf, double]
  | false =>
    rw [ptP, inf, pointOf_false, double_affine_eq_none_iff, two_mul_toNat_emod_primeP_eq_zero_iff, eq_self, true_and]

/-- Settles O35: equal registers and flags give equal operands. -/
theorem addOfEqualOperandsIsDouble : Obligations.AddOfEqualOperandsIsDouble := by
  refine ⟨add_self, fun s flags sameX sameY => ?_⟩
  have operands : ptQ s.engine = ptP s.engine := by rw [ptQ, ptP, flags, sameX, sameY]
  rw [exec_add, exec_double, operands, add_self]

/-! ### The curve over the field of p elements -/

/-- spec/00_scope.md R11: the field of the coordinates. -/
abbrev BaseField := ZMod curveP.toNat

/-- The curve y² = x³ + 7 (spec/10_state.md R31), as Mathlib's Weierstrass curve. -/
def curve : WeierstrassCurve.Affine BaseField := ⟨0, 0, 0, 0, 7⟩

/-- The affine point whose coordinates are the remainders x and y modulo p. -/
def fieldPoint (x y : BaseField) : Point := .affine x.val y.val

/-- A point of Mathlib's group of the curve, as the model's point. -/
def ofGroup : curve.Point → Point
  | .zero => .infinity
  | .some x y _ => fieldPoint x y

theorem ofGroup_some {x y : BaseField} (nonsingular : curve.Nonsingular x y) : ofGroup (.some x y nonsingular) = fieldPoint x y :=
  rfl

theorem emod_primeP_eq_zero_iff (a : Int) : a % primeP = 0 ↔ (a : BaseField) = 0 := by
  rw [ZMod.intCast_zmod_eq_zero_iff_dvd, Int.dvd_iff_emod_eq_zero, primeP]

theorem two_ne_zero_baseField : (2 : BaseField) ≠ 0 := by
  have odd := (emod_primeP_eq_zero_iff 2).not.1 (by decide +kernel)
  exact_mod_cast odd

theorem equation_iff (x y : BaseField) : curve.Equation x y ↔ y * y - x * x * x - 7 = 0 := by
  rw [WeierstrassCurve.Affine.equation_iff', curve]
  constructor <;> intro equation <;> linear_combination equation

theorem negY_eq (x y : BaseField) : curve.negY x y = -y := by simp [curve]

section
variable [Fact curveP.toNat.Prime]

/-- R112 step 4: the group's slope of the chord is the quotient of the differences. -/
theorem slope_mul_of_X_ne {x1 x2 : BaseField} (ne : x1 ≠ x2) (y1 y2 : BaseField) :
    curve.slope x1 x2 y1 y2 * (x2 - x1) = y2 - y1 := by
  rw [WeierstrassCurve.Affine.slope_of_X_ne ne, ← neg_div_neg_eq, neg_sub, neg_sub, div_mul_cancel₀ _ (sub_ne_zero.2 ne.symm)]

/-- R113: the group's slope of the tangent is 3·x² / 2·y. -/
theorem slope_mul_of_Y_ne {y : BaseField} (unit : 2 * y ≠ 0) (x : BaseField) : curve.slope x x y y * (2 * y) = 3 * x * x := by
  have ne : y ≠ curve.negY x y := by
    rw [negY_eq]
    intro same
    exact unit (by linear_combination same)
  have numerator : 3 * x ^ 2 + 2 * curve.a₂ * x + curve.a₄ - curve.a₁ * y = 3 * x * x := by
    change 3 * x ^ 2 + 2 * 0 * x + 0 - 0 * y = _
    ring
  rw [WeierstrassCurve.Affine.slope_of_Y_ne rfl ne, negY_eq, sub_neg_eq_add, ← two_mul, numerator, div_mul_cancel₀ _ unit]

theorem emod_primeP_eq_val (a : Int) : a % primeP = (a : BaseField).val := (ZMod.val_intCast a).symm

theorem val_bounds (x : BaseField) : 0 ≤ (x.val : Int) ∧ (x.val : Int) < primeP :=
  ⟨Int.natCast_nonneg _, Int.ofNat_lt.2 x.val_lt⟩

theorem intCast_val (x : BaseField) : ((x.val : Int) : BaseField) = x := by rw [Int.cast_natCast, ZMod.natCast_zmod_val]

/-- The glossary's test for a point of the curve, over the field. -/
theorem onCurve_affine_iff (x y : Int) :
    onCurve (.affine x y) = true ↔ (0 ≤ x ∧ x < primeP) ∧ (0 ≤ y ∧ y < primeP) ∧ curve.Equation x y := by
  have a : (curveA.toNat : Int) = 0 := by decide
  have b : (curveB.toNat : Int) = 7 := by decide
  have cast : ((y * y - x * x * x - 0 * x - 7 : Int) : BaseField) = y * y - x * x * x - 7 := by push_cast; ring
  rw [onCurve, decide_eq_true_iff, modulo_eq_emod primeP_pos, a, b, emod_primeP_eq_zero_iff, cast, ← equation_iff]
  simp only [and_assoc]

/-- R32: no point of the curve has y = 0. -/
theorem y_ne_zero_of_equation {x y : BaseField} (equation : curve.Equation x y) : y ≠ 0 := by
  rintro rfl
  have absent := onCurve_y_zero x.val
  rw [← Bool.not_eq_true, onCurve_affine_iff, intCast_val, Int.cast_zero] at absent
  exact absent ⟨val_bounds x, ⟨le_rfl, primeP_pos⟩, equation⟩

theorem two_mul_y_ne_zero_of_equation {x y : BaseField} (equation : curve.Equation x y) : 2 * y ≠ 0 :=
  mul_ne_zero two_ne_zero_baseField (y_ne_zero_of_equation equation)

theorem y_ne_negY_of_equation {x y : BaseField} (equation : curve.Equation x y) : y ≠ curve.negY x y := by
  rw [negY_eq]
  intro same
  exact two_mul_y_ne_zero_of_equation equation (by linear_combination same)

/-- Every point of the curve is nonsingular, since none has y = 0. -/
theorem nonsingular_of_equation {x y : BaseField} (equation : curve.Equation x y) : curve.Nonsingular x y :=
  (WeierstrassCurve.Affine.nonsingular_iff ..).2 ⟨equation, .inr (y_ne_negY_of_equation equation)⟩

/-- The points of the model that are on the curve are the points of the group. -/
theorem onCurve_iff_exists_ofGroup (P : Point) : onCurve P = true ↔ ∃ X, ofGroup X = P := by
  constructor
  · intro valid
    cases P with
    | infinity => exact ⟨0, rfl⟩
    | affine x y =>
      obtain ⟨⟨lowerX, upperX⟩, ⟨lowerY, upperY⟩, equation⟩ := (onCurve_affine_iff x y).1 valid
      refine ⟨.some x y (nonsingular_of_equation equation), ?_⟩
      rw [ofGroup, fieldPoint, ← emod_primeP_eq_val, ← emod_primeP_eq_val, Int.emod_eq_of_lt lowerX upperX,
        Int.emod_eq_of_lt lowerY upperY]
  · rintro ⟨_ | ⟨x, y, nonsingular⟩, rfl⟩
    · rfl
    · rw [ofGroup, fieldPoint, onCurve_affine_iff, intCast_val, intCast_val]
      exact ⟨val_bounds x, val_bounds y, nonsingular.1⟩

theorem onCurve_ofGroup (X : curve.Point) : onCurve (ofGroup X) = true := (onCurve_iff_exists_ofGroup _).2 ⟨X, rfl⟩

theorem fitsRegisters_ofGroup (X : curve.Point) : fitsRegisters (ofGroup X) := by
  obtain _ | ⟨x, y, nonsingular⟩ := X
  · trivial
  · exact fitsRegisters_of_lt_primeP (val_bounds x) (val_bounds y)

/-! ### The group law -/

/-- R112, R113: the third point is the one of Mathlib's formulas. -/
theorem thirdPoint_val (l x1 y1 x2 : BaseField) :
    thirdPoint l.val x1.val y1.val x2.val = fieldPoint (curve.addX x1 x2 l) (curve.addY x1 x2 y1 l) := by
  have castX : ((l.val * l.val - x1.val - x2.val : Int) : BaseField) = curve.addX x1 x2 l := by
    simp [curve, pow_two]
  have castY : ((l.val * (x1.val - (curve.addX x1 x2 l).val) - y1.val : Int) : BaseField) = curve.addY x1 x2 y1 l := by
    rw [WeierstrassCurve.Affine.addY, negY_eq, WeierstrassCurve.Affine.negAddY]
    push_cast [ZMod.natCast_zmod_val]
    ring
  rw [thirdPoint_eq, emod_primeP_eq_val (l.val * l.val - x1.val - x2.val), castX, emod_primeP_eq_val, castY, fieldPoint]

/-- R113 over the field, on the curve or not. -/
theorem double_fieldPoint {x y l : BaseField} (unit : 2 * y ≠ 0) (slope : l * (2 * y) = 3 * x * x) :
    double (fieldPoint x y) = some (fieldPoint (curve.addX x x l) (curve.addY x x y l)) := by
  obtain ⟨lower, upper⟩ := val_bounds l
  rw [← thirdPoint_val, fieldPoint]
  apply double_of_slope _ lower upper
  · rw [emod_primeP_eq_zero_iff]
    push_cast [ZMod.natCast_zmod_val]
    rw [slope, sub_self]
  · rw [ne_eq, emod_primeP_eq_zero_iff]
    push_cast [ZMod.natCast_zmod_val]
    exact unit

/-- R112 step 4 over the field, on the curve or not. -/
theorem add_fieldPoint {x1 y1 x2 y2 l : BaseField} (ne : x1 ≠ x2) (slope : l * (x2 - x1) = y2 - y1) :
    add (fieldPoint x1 y1) (fieldPoint x2 y2) = some (fieldPoint (curve.addX x1 x2 l) (curve.addY x1 x2 y1 l)) := by
  obtain ⟨lower, upper⟩ := val_bounds l
  rw [← thirdPoint_val, fieldPoint, fieldPoint]
  apply add_of_slope _ lower upper
  · rw [emod_primeP_eq_zero_iff]
    push_cast [ZMod.natCast_zmod_val]
    rw [slope, sub_self]
  · rw [ne_eq, emod_primeP_eq_zero_iff]
    push_cast [ZMod.natCast_zmod_val]
    exact sub_ne_zero.2 ne.symm

/-- R112 step 3 over the field: a point with y ≠ 0 and its negative add to the identity. -/
theorem add_fieldPoint_neg {x y : BaseField} (unit : 2 * y ≠ 0) : add (fieldPoint x (-y)) (fieldPoint x y) = some .infinity := by
  apply add_of_opposite
  · intro same
    have negated : -y = y := ZMod.val_injective _ (Int.ofNat_inj.1 same)
    exact unit (by linear_combination -negated)
  · rw [emod_primeP_eq_zero_iff]
    push_cast [ZMod.natCast_zmod_val]
    exact neg_add_cancel y

/-- R113 on the curve: DOUBLE is the doubling of the group. -/
theorem double_ofGroup (X : curve.Point) : double (ofGroup X) = some (ofGroup (X + X)) := by
  obtain _ | ⟨x, y, nonsingular⟩ := X
  · rfl
  · have unit := two_mul_y_ne_zero_of_equation nonsingular.1
    rw [WeierstrassCurve.Affine.Point.add_self_of_Y_ne (y_ne_negY_of_equation nonsingular.1), ofGroup_some, ofGroup_some,
      double_fieldPoint unit (slope_mul_of_Y_ne unit x)]

/-- R112 on the curve: ADD is the addition of the group. -/
theorem add_ofGroup (X Y : curve.Point) : add (ofGroup X) (ofGroup Y) = some (ofGroup (X + Y)) := by
  obtain _ | ⟨x1, y1, h1⟩ := X
  · exact add_infinity_left _
  obtain _ | ⟨x2, y2, h2⟩ := Y
  · exact add_infinity_right _
  by_cases sameX : x1 = x2
  · subst sameX
    obtain rfl | opposite := WeierstrassCurve.Affine.Y_eq_of_X_eq h1.1 h2.1 rfl
    · rw [add_self, double_ofGroup]
    · rw [WeierstrassCurve.Affine.Point.add_of_Y_eq rfl opposite, ofGroup_some, ofGroup_some, opposite, negY_eq,
        add_fieldPoint_neg (two_mul_y_ne_zero_of_equation h2.1)]
      rfl
  · rw [WeierstrassCurve.Affine.Point.add_of_X_ne sameX, ofGroup_some, ofGroup_some, ofGroup_some,
      add_fieldPoint sameX (slope_mul_of_X_ne sameX y1 y2)]

end

/-! ### The statements on the group law -/

/-- Settles O37: the addition of the group commutes. -/
theorem addCommutesOnTheCurve : Obligations.AddCommutesOnTheCurve := by
  have prime : Fact curveP.toNat.Prime := ⟨Laws.curveP_prime⟩
  intro P Q validP validQ
  obtain ⟨X, rfl⟩ := (onCurve_iff_exists_ofGroup P).1 validP
  obtain ⟨Y, rfl⟩ := (onCurve_iff_exists_ofGroup Q).1 validQ
  rw [add_ofGroup, add_ofGroup, add_comm]

/-- Settles O38: the addition of the group associates, and no addition on the curve fails. -/
theorem addAssociatesOnTheCurve : Obligations.AddAssociatesOnTheCurve := by
  have prime : Fact curveP.toNat.Prime := ⟨Laws.curveP_prime⟩
  intro P Q R validP validQ validR
  obtain ⟨X, rfl⟩ := (onCurve_iff_exists_ofGroup P).1 validP
  obtain ⟨Y, rfl⟩ := (onCurve_iff_exists_ofGroup Q).1 validQ
  obtain ⟨Z, rfl⟩ := (onCurve_iff_exists_ofGroup R).1 validR
  simp only [add_ofGroup, Option.bind_some, add_assoc]

/-- Settles O36: the group is closed, and the double of an affine point is affine by its formula. -/
theorem validOperandsNeverFail : Obligations.ValidOperandsNeverFail := by
  have prime : Fact curveP.toNat.Prime := ⟨Laws.curveP_prime⟩
  intro s validP
  obtain ⟨X, pointP⟩ := (onCurve_iff_exists_ofGroup _).1 validP
  constructor
  · intro validQ
    obtain ⟨Y, pointQ⟩ := (onCurve_iff_exists_ofGroup _).1 validQ
    obtain ⟨t, run, committed⟩ := finish_commits (fitsRegisters_ofGroup (X + Y)) s
    refine ⟨t, _, ?_, committed, onCurve_ofGroup (X + Y)⟩
    rw [exec_add, ← pointP, ← pointQ, add_ofGroup, run]
  · obtain ⟨t, run, committed⟩ := finish_commits (fitsRegisters_ofGroup (X + X)) s
    refine ⟨t, _, ?_, committed, onCurve_ofGroup (X + X), fun affine identity => ?_⟩
    · rw [exec_double, ← pointP, double_ofGroup, run]
    · have doubled := double_ofGroup X
      rw [pointP, ptP, affine, pointOf_false, identity] at doubled
      exact double_affine_ne_infinity _ _ doubled

end Sys2Proof.Proofs
end

section
/-! PROOFS. The family 41_scalar_multiplication: MULSCALAR and MULGEN (spec/41_scalar_multiplication.md). First the sequencer on
every operand, with its counts and its corner cases; then scalar multiplication on the curve as the multiples of Mathlib's group;
then the order of that group, which is n. -/

namespace Sys2Proof.Proofs

open Sys2Proof.Machine

/-! ### The sequencer -/

/-- R9: shifting right by one bit takes one off the length. -/
theorem bitlen_of_ne_zero {k : Nat} (more : k ≠ 0) : bitlen k = bitlen (k / 2) + 1 := by
  rw [bitlen, if_neg more, Nat.log2_def, bitlen]
  split_ifs <;> omega

/-- R9: the lowest bit counts apart. -/
theorem popcount_of_ne_zero {k : Nat} (more : k ≠ 0) : popcount k = k % 2 + popcount (k / 2) := by
  rw [popcount, bitlen_of_ne_zero more, popcountBelow, popcount]

/-- R130: the loop test ends the run. -/
theorem runSequencer_of_zero {q : Sequencer} (zero : q.k = 0) : runSequencer (bitlen q.k) q = some q := by
  rw [zero]; rfl

/-- R130: otherwise the run makes one iteration and goes on with what it gives. -/
theorem runSequencer_of_ne_zero {q : Sequencer} (more : q.k ≠ 0) :
    runSequencer (bitlen q.k) q = (iterate q).bind (runSequencer (bitlen (q.k / 2))) := by
  rw [bitlen_of_ne_zero more, runSequencer, if_neg more]

/-- R130: what an iteration that does not fail does. -/
theorem iterate_eq_some {q q' : Sequencer} (h : iterate q = some q') :
    ∃ acc addend, (if q.k % 2 = 1 then add q.acc q.addend else some q.acc) = some acc ∧ double q.addend = some addend ∧
      q' = ⟨acc, addend, q.k / 2⟩ := by
  obtain ⟨acc, accumulated, rest⟩ := Option.bind_eq_some_iff.1 h
  obtain ⟨addend, doubled, next⟩ := Option.map_eq_some_iff.1 rest
  exact ⟨acc, addend, accumulated, doubled, next.symm⟩

/-- R130: it shifts the scalar right by one bit. -/
theorem k_of_iterate {q q' : Sequencer} (h : iterate q = some q') : q'.k = q.k / 2 := by
  obtain ⟨acc, addend, -, -, rfl⟩ := iterate_eq_some h
  rfl

/-- Settles O40: the loop's test and its one iteration. -/
theorem sequencerIsTheWhileLoop : Obligations.SequencerIsTheWhileLoop := by
  intro q
  split
  · next zero => exact runSequencer_of_zero zero
  · next more =>
    rw [runSequencer_of_ne_zero more, iterate, Option.bind_assoc]
    simp only [Option.bind_map]
    rfl

/-- R133: a run that ends counts one iteration and one doubling for each bit of k and one addition for each 1 bit. -/
theorem countRun_of_run (fuel : Nat) {q r : Sequencer} (enough : q.k ≤ fuel) (run : runSequencer (bitlen q.k) q = some r) :
    countRun fuel q = some ⟨bitlen q.k, bitlen q.k, popcount q.k⟩ := by
  induction fuel generalizing q with
  | zero => rw [show q.k = 0 by omega]; rfl
  | succ fuel ih =>
    rw [countRun]
    split
    · next zero => rw [zero]; rfl
    · next more =>
      rw [runSequencer_of_ne_zero more] at run
      obtain ⟨q', first, rest⟩ := Option.bind_eq_some_iff.1 run
      have shifted := k_of_iterate first
      rw [← shifted] at rest
      rw [first, Option.bind_some, ih (by omega) rest, shifted, Option.map_some, bitlen_of_ne_zero more,
        popcount_of_ne_zero more, Nat.add_comm (q.k % 2)]

/-- Settles O41: the bound of the counting run is the scalar itself. -/
theorem operationCounts : Obligations.OperationCounts := by
  intro P k v result
  obtain ⟨r, run, -⟩ := Option.map_eq_some_iff.1 result
  exact countRun_of_run (q := loadSequencer P k) k le_rfl run

/-! ### Every operand fits the registers -/

/-- R23, R113: the double of a point that fits the registers fits them. -/
theorem fitsRegisters_of_double {P v : Point} (h : double P = some v) : fitsRegisters v := by
  cases P with
  | infinity => cases h; trivial
  | affine x y =>
    obtain ⟨inv, -, rfl⟩ := Option.map_eq_some_iff.1 h
    exact fitsRegisters_thirdPoint ..

/-- R23, R112: the sum of points that fit the registers fits them. -/
theorem fitsRegisters_of_add {P Q v : Point} (fitsP : fitsRegisters P) (fitsQ : fitsRegisters Q) (h : add P Q = some v) :
    fitsRegisters v := by
  cases P with
  | infinity => cases h; exact fitsQ
  | affine x1 y1 =>
    cases Q with
    | infinity => cases h; exact fitsP
    | affine x2 y2 =>
      rw [add] at h
      split_ifs at h
      · exact fitsRegisters_of_double h
      · cases h; trivial
      · obtain ⟨inv, -, rfl⟩ := Option.map_eq_some_iff.1 h
        exact fitsRegisters_thirdPoint ..

/-- R23: the points the sequencer holds fit the registers. -/
def sequencerFits (q : Sequencer) : Prop := fitsRegisters q.acc ∧ fitsRegisters q.addend

theorem sequencerFits_iterate {q q' : Sequencer} (fits : sequencerFits q) (h : iterate q = some q') : sequencerFits q' := by
  obtain ⟨acc, addend, accumulated, doubled, rfl⟩ := iterate_eq_some h
  refine ⟨?_, fitsRegisters_of_double doubled⟩
  split_ifs at accumulated
  · exact fitsRegisters_of_add fits.1 fits.2 accumulated
  · cases accumulated; exact fits.1

theorem sequencerFits_run (fuel : Nat) {q r : Sequencer} (fits : sequencerFits q) (h : runSequencer fuel q = some r) :
    sequencerFits r := by
  induction fuel generalizing q with
  | zero => cases h; exact fits
  | succ fuel ih =>
    rw [runSequencer] at h
    split_ifs at h
    · cases h; exact fits
    · obtain ⟨q', first, rest⟩ := Option.bind_eq_some_iff.1 h
      exact ih (sequencerFits_iterate fits first) rest

theorem fitsRegisters_mulscalar {P v : Point} {k : Nat} (fits : fitsRegisters P) (h : mulscalar P k = some v) :
    fitsRegisters v := by
  obtain ⟨r, run, rfl⟩ := Option.map_eq_some_iff.1 h
  exact (sequencerFits_run _ (q := loadSequencer P k) ⟨trivial, fits⟩ run).1

/-! ### The corner cases -/

/-- R131 (a). -/
theorem mulscalar_zero (P : Point) : mulscalar P 0 = some .infinity := rfl

/-- R131 (b), R137: the one iteration of K = 1 doubles its addend too. -/
theorem mulscalar_one (P : Point) : mulscalar P 1 = (double P).map fun _ => P := by
  have once : iterate (loadSequencer P 1) = (double P).map fun addend => ⟨P, addend, 0⟩ := by
    simp [iterate, loadSequencer, add_infinity_left]
  have run : runSequencer (bitlen 1) (loadSequencer P 1) = (iterate (loadSequencer P 1)).bind some := rfl
  rw [mulscalar, run, Option.bind_fun_some, once, Option.map_map]
  rfl

/-- R131 (c): a sequencer that holds only the identity keeps it. -/
theorem runSequencer_infinity (fuel k : Nat) :
    (runSequencer fuel ⟨.infinity, .infinity, k⟩).map Sequencer.acc = some .infinity := by
  induction fuel generalizing k with
  | zero => rfl
  | succ fuel ih =>
    have once : iterate ⟨.infinity, .infinity, k⟩ = some ⟨.infinity, .infinity, k / 2⟩ := by
      rw [iterate]
      split <;> rfl
    rw [runSequencer]
    split
    · rfl
    · rw [once, Option.bind_some, ih]

theorem mulscalar_infinity (k : Nat) : mulscalar .infinity k = some .infinity := runSequencer_infinity _ k

/-- R43: MULSCALAR commits what its function gives. -/
theorem exec_mulscalar_commits {s : State} {v : Point} (result : mulscalar (ptP s.engine) s.engine.k.toNat = some v) :
    ∃ t, exec .mulscalar s = .next t ∧ committedPoint v s t := by
  rw [exec_mulscalar, result]
  exact finish_commits (fitsRegisters_mulscalar (fitsRegisters_pointOf ..) result) s

/-- R187: MULSCALAR fails where its function does. -/
theorem exec_mulscalar_fails {s : State} (result : mulscalar (ptP s.engine) s.engine.k.toNat = none) :
    ∃ t, exec .mulscalar s = .next t ∧ endedInError .arithFail s t := by
  rw [exec_mulscalar, result]
  exact ⟨_, rfl, endedInError_complete .arithFail s⟩

/-- R131 (b), R113: the doubling of an affine register operand fails exactly at PY = 0 and PY = p. -/
theorem double_ptP_eq_none_iff {e : Engine} (affine : e.pinf = false) : double (ptP e) = none ↔ e.py = 0 ∨ e.py = curveP := by
  rw [ptP, affine, pointOf_false, double_affine_eq_none_iff, two_mul_toNat_emod_primeP_eq_zero_iff]

/-- Settles O42: the value and the failure of `mulscalar`, which the corner cases give. -/
theorem mulscalarCornerCases : Obligations.MulscalarCornerCases := by
  intro s
  refine ⟨fun v => exec_mulscalar_commits, exec_mulscalar_fails, ?_, fun one affine nonzero below => ?_,
    fun one affine fails => ?_⟩
  · rintro (zero | identity) <;> apply exec_mulscalar_commits
    · rw [zero]; exact mulscalar_zero _
    · rw [ptP, identity]; exact mulscalar_infinity _
  · apply exec_mulscalar_commits
    obtain ⟨doubled, h⟩ := Option.ne_none_iff_exists'.1
      (mt (double_ptP_eq_none_iff affine).1 (not_or.2 ⟨nonzero, below⟩))
    rw [one, show (1 : Word256).toNat = 1 from rfl, mulscalar_one, h, Option.map_some]
  · apply exec_mulscalar_fails
    rw [one, show (1 : Word256).toNat = 1 from rfl, mulscalar_one, (double_ptP_eq_none_iff affine).2 fails, Option.map_none]

/-- R132: with P = G the operand of MULSCALAR is the generator. -/
theorem ptP_eq_generator {e : Engine} (affine : e.pinf = false) (x : e.px = curveGX) (y : e.py = curveGY) :
    ptP e = generator := by
  rw [ptP, affine, x, y, pointOf_false, generator]

/-- Settles O43: the two commands evaluate `mulscalar` at the same point. -/
theorem mulgenIsMulscalarOfG : Obligations.MulgenIsMulscalarOfG := by
  intro s affine x y
  rw [exec_mulgen, exec_mulscalar, ptP_eq_generator affine x y]

/-! ### Multiples on the curve -/

section
variable [Fact curveP.toNat.Prime]

/-- R134: the loop's invariant. What remains of the run adds k times the addend to the accumulator. -/
theorem runSequencer_ofGroup (k : Nat) (A B : curve.Point) :
    (runSequencer (bitlen k) ⟨ofGroup A, ofGroup B, k⟩).map Sequencer.acc = some (ofGroup (A + k • B)) := by
  induction k using Nat.strong_induction_on generalizing A B with
  | _ k ih =>
    obtain rfl | more := eq_or_ne k 0
    · rw [zero_nsmul, add_zero]; rfl
    · have once : iterate ⟨ofGroup A, ofGroup B, k⟩ = some ⟨ofGroup (A + (k % 2) • B), ofGroup (B + B), k / 2⟩ := by
        rw [iterate, double_ofGroup, add_ofGroup]
        obtain even | odd := Nat.mod_two_eq_zero_or_one k
        · simp [even]
        · simp [odd]
      have split : A + (k % 2) • B + (k / 2) • (B + B) = A + k • B := by
        rw [← two_nsmul, ← mul_nsmul, add_assoc, ← add_nsmul, Nat.mod_add_div]
      rw [runSequencer_of_ne_zero (q := ⟨_, _, k⟩) more, once, Option.bind_some,
        ih (k / 2) (by omega), split]

/-- R134: scalar multiplication on the curve gives the multiples of the group. -/
theorem mulscalar_ofGroup (X : curve.Point) (k : Nat) : mulscalar (ofGroup X) k = some (ofGroup (k • X)) := by
  rw [← zero_add (k • X)]
  exact runSequencer_ofGroup k 0 X

theorem kFold_ofGroup (X : curve.Point) (k : Nat) : kFold (ofGroup X) k = some (ofGroup (k • X)) := by
  induction k with
  | zero => rw [zero_nsmul]; rfl
  | succ k ih => rw [kFold, ih, Option.bind_some, add_ofGroup, succ_nsmul]

end

theorem onCurve_generator : onCurve generator = true := by decide +kernel

/-- R138: a point command that evaluates to a point on the curve commits it. -/
theorem finish_mulscalar_onCurve {P : Point} (valid : onCurve P = true) (k : Nat) (s : State) :
    ∃ t v, finish (pointResult (mulscalar P k)) s = .next t ∧ committedPoint v s t ∧ onCurve v = true ∧
      mulscalar P k = some v := by
  have prime : Fact curveP.toNat.Prime := ⟨Laws.curveP_prime⟩
  obtain ⟨X, rfl⟩ := (onCurve_iff_exists_ofGroup P).1 valid
  obtain ⟨t, run, committed⟩ := finish_commits (fitsRegisters_ofGroup (k • X)) s
  exact ⟨t, _, by rw [mulscalar_ofGroup, run], committed, onCurve_ofGroup _, mulscalar_ofGroup X k⟩

/-- Settles O44: both commands take the multiples of a point on the curve. -/
theorem scalarMultiplicationNeverFailsOnTheCurve : Obligations.ScalarMultiplicationNeverFailsOnTheCurve := by
  intro s
  rw [exec_mulscalar, exec_mulgen]
  exact ⟨fun valid => finish_mulscalar_onCurve valid _ s, finish_mulscalar_onCurve onCurve_generator _ s⟩

/-- Settles O45: both sides are the multiple in the group. -/
theorem mulscalarIsRepeatedAddition : Obligations.MulscalarIsRepeatedAddition := by
  have prime : Fact curveP.toNat.Prime := ⟨Laws.curveP_prime⟩
  intro P k valid _
  obtain ⟨X, rfl⟩ := (onCurve_iff_exists_ofGroup P).1 valid
  rw [mulscalar_ofGroup, kFold_ofGroup]

/-! ### A multiple of the generator that is the identity

Evaluating n·G on the model takes an inversion for each addition. In Jacobian coordinates it takes none, so that the kernel checks
n·G = 0 in a second. -/

/-- Coordinates (x, y, z) that stand for the affine point x / z², y / z³. -/
structure Jacobian where
  x : Int
  y : Int
  z : Int

/-- G in Jacobian coordinates. -/
def Jacobian.generator : Jacobian := ⟨curveGX.toNat, curveGY.toNat, 1⟩

/-- The double, by the tangent (R113). -/
def Jacobian.double (t : Jacobian) : Jacobian :=
  let d := 4 * t.x * t.y * t.y
  let e := 3 * t.x * t.x
  let x := (e * e - 2 * d) % primeP
  ⟨x, (e * (d - x) - 8 * t.y * t.y * t.y * t.y) % primeP, 2 * t.y * t.z % primeP⟩

/-- The sum with G, by the chord (R112 step 4). -/
def Jacobian.addGenerator (t : Jacobian) : Jacobian :=
  let h := curveGX.toNat * t.z * t.z - t.x
  let r := curveGY.toNat * t.z * t.z * t.z - t.y
  let v := t.x * h * h
  let x := (r * r - h * h * h - 2 * v) % primeP
  ⟨x, (r * (v - x) - t.y * h * h * h) % primeP, t.z * h % primeP⟩

/-- k times G for 0 < k < 2^fuel, by the bits of k from the highest down. -/
def Jacobian.multiple : Nat → Nat → Jacobian
  | 0, _ => generator
  | fuel + 1, k =>
    if k ≤ 1 then generator
    else if k % 2 = 1 then (multiple fuel (k / 2)).double.addGenerator
    else (multiple fuel (k / 2)).double

/-- The test for -G in Jacobian coordinates. -/
def Jacobian.isNegGenerator (t : Jacobian) : Bool :=
  decide (t.z % primeP ≠ 0 ∧ (t.x - curveGX.toNat * t.z ^ 2) % primeP = 0 ∧ (t.y + curveGY.toNat * t.z ^ 3) % primeP = 0)

/-- The kernel's evaluation: (n - 1)·G = -G. -/
theorem multiple_pred_order : (Jacobian.multiple 256 (curveN.toNat - 1)).isNegGenerator = true := by decide +kernel

theorem ofGroup_eq_infinity_iff (X : curve.Point) : ofGroup X = .infinity ↔ X = 0 := by
  cases X with
  | zero => exact iff_of_true rfl rfl
  | some x y nonsingular => exact iff_of_false nofun (WeierstrassCurve.Affine.Point.some_ne_zero nonsingular)

section
variable [Fact curveP.toNat.Prime]

/-- Jacobian coordinates of an affine point; with z = 0 they say nothing. -/
def Jacobian.represents (t : Jacobian) (P : Point) : Prop :=
  (t.z : BaseField) ≠ 0 → ∃ x y : BaseField,
    P = fieldPoint x y ∧ (t.x : BaseField) = x * t.z ^ 2 ∧ (t.y : BaseField) = y * t.z ^ 3

theorem intCast_emod_primeP (a : Int) : ((a % primeP : Int) : BaseField) = a := ZMod.intCast_mod a _

/-- The generator's coordinates are reduced modulo p. -/
theorem generator_eq_fieldPoint : generator = fieldPoint (curveGX.toNat : BaseField) (curveGY.toNat : BaseField) := by
  rw [fieldPoint, ZMod.val_natCast_of_lt (by decide +kernel), ZMod.val_natCast_of_lt (by decide +kernel), generator]

theorem represents_generator : Jacobian.generator.represents generator :=
  fun _ => ⟨_, _, generator_eq_fieldPoint, by simp [Jacobian.generator], by simp [Jacobian.generator]⟩

theorem addX_eq (x1 x2 l : BaseField) : curve.addX x1 x2 l = l ^ 2 - x1 - x2 := by simp [curve]

theorem addY_eq (x1 x2 y1 l : BaseField) : curve.addY x1 x2 y1 l = l * (x1 - curve.addX x1 x2 l) - y1 := by
  rw [WeierstrassCurve.Affine.addY, negY_eq, WeierstrassCurve.Affine.negAddY]
  ring

theorem represents_double {t : Jacobian} {X : curve.Point} (h : t.represents (ofGroup X)) :
    t.double.represents (ofGroup (X + X)) := by
  intro nonzero
  simp only [Jacobian.double, intCast_emod_primeP, Int.cast_mul, Int.cast_ofNat] at nonzero
  obtain ⟨x, y, point, coordX, coordY⟩ := h (right_ne_zero_of_mul nonzero)
  have unit : 2 * y ≠ 0 := by
    rw [coordY] at nonzero
    intro zero
    exact nonzero (by linear_combination (t.z : BaseField) ^ 4 * zero)
  obtain ⟨l, slope⟩ : ∃ l, l * (2 * y) = 3 * x * x := ⟨3 * x * x / (2 * y), div_mul_cancel₀ _ unit⟩
  have doubled := double_ofGroup X
  rw [point, double_fieldPoint unit slope] at doubled
  have tangent : (3 * t.x * t.x : BaseField) = l * (2 * t.y * t.z) := by
    rw [coordX, coordY]
    linear_combination -(t.z : BaseField) ^ 4 * slope
  refine ⟨_, _, (Option.some_inj.1 doubled).symm, ?_, ?_⟩
  · simp only [Jacobian.double, intCast_emod_primeP]
    push_cast
    rw [tangent, addX_eq, coordX, coordY]
    ring
  · simp only [Jacobian.double, intCast_emod_primeP]
    push_cast [intCast_emod_primeP]
    rw [tangent, addY_eq, addX_eq, coordX, coordY]
    ring

theorem represents_addGenerator {t : Jacobian} {X G : curve.Point} (isGenerator : ofGroup G = generator)
    (h : t.represents (ofGroup X)) : t.addGenerator.represents (ofGroup (X + G)) := by
  intro nonzero
  simp only [Jacobian.addGenerator, intCast_emod_primeP] at nonzero
  push_cast at nonzero
  obtain ⟨x, y, point, coordX, coordY⟩ := h (left_ne_zero_of_mul nonzero)
  have ne : x ≠ curveGX.toNat := by
    intro same
    rw [coordX, same] at nonzero
    exact nonzero (by ring)
  obtain ⟨l, slope⟩ : ∃ l, l * (curveGX.toNat - x) = curveGY.toNat - y :=
    ⟨_, div_mul_cancel₀ _ (sub_ne_zero.2 ne.symm)⟩
  have added := add_ofGroup X G
  rw [point, isGenerator, generator_eq_fieldPoint, add_fieldPoint ne slope] at added
  have chord : (curveGY.toNat * t.z * t.z * t.z - t.y : BaseField) = l * (t.z * (curveGX.toNat * t.z * t.z - t.x)) := by
    rw [coordX, coordY]
    linear_combination -(t.z : BaseField) ^ 3 * slope
  refine ⟨_, _, (Option.some_inj.1 added).symm, ?_, ?_⟩
  · simp only [Jacobian.addGenerator, intCast_emod_primeP]
    push_cast
    rw [chord, addX_eq, coordX]
    ring
  · simp only [Jacobian.addGenerator, intCast_emod_primeP]
    push_cast [intCast_emod_primeP]
    rw [chord, addY_eq, addX_eq, coordX, coordY]
    ring

theorem represents_multiple {G : curve.Point} (isGenerator : ofGroup G = generator) (fuel : Nat) {k : Nat} (positive : 0 < k)
    (enough : k < 2 ^ fuel) : (Jacobian.multiple fuel k).represents (ofGroup (k • G)) := by
  induction fuel generalizing k with
  | zero => omega
  | succ fuel ih =>
    have half (more : 1 < k) : (Jacobian.multiple fuel (k / 2)).double.represents (ofGroup ((2 * (k / 2)) • G)) := by
      rw [two_mul, add_nsmul]
      exact represents_double (ih (by omega) (by omega))
    rw [Jacobian.multiple]
    split_ifs with one odd
    · rw [show k = 1 by omega, one_nsmul, isGenerator]
      exact represents_generator
    · have sum := represents_addGenerator isGenerator (half (by omega))
      rwa [← succ_nsmul, show 2 * (k / 2) + 1 = k by omega] at sum
    · have sum := half (by omega)
      rwa [show 2 * (k / 2) = k by omega] at sum

theorem eq_of_isNegGenerator {t : Jacobian} {P : Point} (h : t.represents P) (test : t.isNegGenerator = true) :
    P = fieldPoint curveGX.toNat (-curveGY.toNat) := by
  rw [Jacobian.isNegGenerator, decide_eq_true_iff, ne_eq] at test
  simp only [emod_primeP_eq_zero_iff] at test
  push_cast at test
  obtain ⟨nonzero, testX, testY⟩ := test
  obtain ⟨x, y, rfl, coordX, coordY⟩ := h nonzero
  rw [mul_right_cancel₀ (pow_ne_zero 2 nonzero) (show x * (t.z : BaseField) ^ 2 = curveGX.toNat * t.z ^ 2 by
      linear_combination testX - coordX),
    mul_right_cancel₀ (pow_ne_zero 3 nonzero) (show y * (t.z : BaseField) ^ 3 = -curveGY.toNat * t.z ^ 3 by
      linear_combination testY - coordY)]

/-- R131 (e), for the generator: (n - 1)·G + G = 0, by step 3 of the addition. -/
theorem order_nsmul_generator {G : curve.Point} (isGenerator : ofGroup G = generator) : curveN.toNat • G = 0 := by
  have negated := eq_of_isNegGenerator (represents_multiple isGenerator 256 (by decide +kernel) (by decide +kernel))
    multiple_pred_order
  have nonzero : 2 * (curveGY.toNat : BaseField) ≠ 0 := by
    have evaluated := (emod_primeP_eq_zero_iff (2 * curveGY.toNat)).not.1 (by decide +kernel)
    exact_mod_cast evaluated
  have sum := add_ofGroup ((curveN.toNat - 1) • G) G
  rw [negated, isGenerator, generator_eq_fieldPoint, add_fieldPoint_neg nonzero, ← succ_nsmul,
    Nat.sub_add_cancel Laws.curveN_prime.one_le] at sum
  exact (ofGroup_eq_infinity_iff _).1 (Option.some_inj.1 sum).symm

/-! ### The order of the group

The number of points is a multiple of n, since G has order n; it is at most 2·(p + 1) < 3·n, since at most two points have the
same x; and it is odd, since no point has y = 0. So it is n. -/

/-- The representatives that Mathlib's `xRep` takes: of a coordinate x, and of none for the identity. -/
def representative (x : Option BaseField) : Fin 2 → BaseField := x.elim ![1, 0] fun x => ![x, 1]

theorem exists_representative (X : curve.Point) : ∃ x, representative x = X.xRep := by
  cases X with
  | zero => exact ⟨none, rfl⟩
  | some x y nonsingular => exact ⟨some x, rfl⟩

/-- A point with the coordinate x, if there is one, or its negative. -/
noncomputable def pointAbove (choice : Option BaseField × Bool) : curve.Point :=
  let X := Function.invFun WeierstrassCurve.Affine.Point.xRep (representative choice.1)
  if choice.2 then X else -X

theorem pointAbove_surjective : Function.Surjective pointAbove := by
  intro X
  obtain ⟨x, above⟩ := exists_representative X
  have same : (Function.invFun WeierstrassCurve.Affine.Point.xRep X.xRep : curve.Point).xRep = X.xRep :=
    Function.invFun_eq ⟨X, rfl⟩
  obtain equal | opposite := WeierstrassCurve.Affine.Point.eq_or_eq_neg_of_xRep_eq_xRep same
  · exact ⟨(x, true), by simp [pointAbove, above, equal]⟩
  · exact ⟨(x, false), by simp [pointAbove, above, opposite]⟩

theorem finite_points : Finite curve.Point := Finite.of_surjective pointAbove pointAbove_surjective

theorem card_points_le : Nat.card curve.Point ≤ 2 * (curveP.toNat + 1) := by
  have signs : Nat.card Bool = 2 := by simp
  have bound := Nat.card_le_card_of_surjective pointAbove pointAbove_surjective
  rwa [Nat.card_prod, Finite.card_option, Nat.card_zmod, signs, mul_comm] at bound

/-- No point has order 2: its y would be 0. -/
theorem not_two_dvd_card_points : ¬ 2 ∣ Nat.card curve.Point := by
  have finite := finite_points
  intro even
  obtain ⟨X, order⟩ := exists_prime_addOrderOf_dvd_card' 2 even
  obtain ⟨double, nonzero⟩ := addOrderOf_eq_prime_iff.1 order
  rw [two_nsmul] at double
  cases X with
  | zero => exact nonzero rfl
  | some x y nonsingular =>
    rw [WeierstrassCurve.Affine.Point.add_self_of_Y_ne (y_ne_negY_of_equation nonsingular.1)] at double
    exact WeierstrassCurve.Affine.Point.some_ne_zero _ double

/-- R32: the curve has n points. -/
theorem card_points : Nat.card curve.Point = curveN.toNat := by
  have finite := finite_points
  have prime : Fact curveN.toNat.Prime := ⟨Laws.curveN_prime⟩
  obtain ⟨G, isGenerator⟩ := (onCurve_iff_exists_ofGroup _).1 onCurve_generator
  have nonzero : G ≠ 0 := by
    rw [ne_eq, ← ofGroup_eq_infinity_iff, isGenerator]
    nofun
  obtain ⟨c, multiple⟩ : curveN.toNat ∣ Nat.card curve.Point :=
    addOrderOf_eq_prime (order_nsmul_generator isGenerator) nonzero ▸ addOrderOf_dvd_natCard G
  have upper : curveN.toNat * c < curveN.toNat * 3 :=
    multiple ▸ card_points_le.trans_lt (by decide +kernel)
  have below := lt_of_mul_lt_mul_left upper (Nat.zero_le _)
  have positive : 0 < Nat.card curve.Point := Nat.card_pos
  have odd := not_two_dvd_card_points
  interval_cases c
  · omega
  · omega
  · exact absurd ⟨_, multiple.trans (mul_comm ..)⟩ odd

/-- R32: every point of the curve other than the identity has order n. -/
theorem addOrderOf_point {X : curve.Point} (nonzero : X ≠ 0) : addOrderOf X = curveN.toNat := by
  have prime : Fact curveN.toNat.Prime := ⟨Laws.curveN_prime⟩
  exact addOrderOf_eq_prime (by rw [← card_points, card_nsmul_eq_zero']) nonzero

/-- R136: multiples depend on the scalar modulo n only. -/
theorem mod_order_nsmul (X : curve.Point) (k : Nat) : (k % curveN.toNat) • X = k • X := by
  rw [← card_points, mod_natCard_nsmul]

end

/-! ### The statements on sums and unreduced scalars -/

theorem orderN_pos : 0 < orderN := by decide +kernel

theorem modulo_orderN_toNat (k : Nat) : (modulo k orderN).toNat = k % curveN.toNat := by
  rw [modulo_eq_emod orderN_pos, orderN, ← Int.natCast_mod, Int.toNat_natCast]

/-- Settles O46: the multiples of the group add, and n takes nothing off. -/
theorem mulscalarOfASum : Obligations.MulscalarOfASum := by
  have prime : Fact curveP.toNat.Prime := ⟨Laws.curveP_prime⟩
  intro P a b valid
  obtain ⟨X, rfl⟩ := (onCurve_iff_exists_ofGroup P).1 valid
  refine ⟨fun _ => ⟨_, _, _, mulscalar_ofGroup X a, mulscalar_ofGroup X b, add_ofGroup .., ?_⟩,
    fun _ _ => ⟨_, _, _, mulscalar_ofGroup X a, mulscalar_ofGroup X b, add_ofGroup .., ?_⟩⟩
  · rw [mulscalar_ofGroup, add_nsmul]
  · rw [← Nat.cast_add, modulo_orderN_toNat, mulscalar_ofGroup, mod_order_nsmul, add_nsmul]

/-- R32: the order n, on the model's points. -/
theorem curveHasOrderN_holds : curveHasOrderN := by
  have prime : Fact curveP.toNat.Prime := ⟨Laws.curveP_prime⟩
  intro P valid affine
  obtain ⟨X, rfl⟩ := (onCurve_iff_exists_ofGroup P).1 valid
  have order := addOrderOf_point ((ofGroup_eq_infinity_iff X).not.1 affine)
  constructor
  · rw [mulscalar_ofGroup, ← order, addOrderOf_nsmul_eq_zero]
    rfl
  · intro k positive below
    rw [mulscalar_ofGroup, ne_eq, Option.some_inj, ofGroup_eq_infinity_iff, ← addOrderOf_dvd_iff_nsmul_eq_zero, order]
    exact Nat.not_dvd_of_pos_of_lt positive below

/-- Settles O47: the order of the group, and a 256-bit scalar below 2·n. -/
theorem unreducedScalar : Obligations.UnreducedScalar := by
  have prime : Fact curveP.toNat.Prime := ⟨Laws.curveP_prime⟩
  refine ⟨curveHasOrderN_holds, fun P k valid small => ⟨?_, ?_⟩⟩
  · obtain ⟨X, rfl⟩ := (onCurve_iff_exists_ofGroup P).1 valid
    rw [modulo_orderN_toNat, mulscalar_ofGroup, mulscalar_ofGroup, mod_order_nsmul]
  · have once : (k : Int) < 2 * orderN := (Int.ofNat_lt.2 small).trans (by decide +kernel)
    rw [modulo_eq_emod orderN_pos]
    obtain below | above := lt_or_ge (k : Int) orderN
    · exact .inl (Int.emod_eq_of_lt (Int.natCast_nonneg k) below)
    · right
      rw [← Int.sub_emod_right, Int.emod_eq_of_lt (by omega) (by omega)]

end Sys2Proof.Proofs
end

section
/-! PROOFS. The family 42_field_arithmetic: INVERT, MODULO, MULMOD and MONTMUL (spec/42_field_arithmetic.md). First one
characterisation of each pure function: `modulo` and `montmul` give the one reduced solution of a congruence, `invert` the one
reduced inverse. Then what a field command does once its modulus is selected, and the statements. -/

namespace Sys2Proof.Proofs

open Sys2Proof.Machine

/-! ### The Euclidean remainder -/

/-- R150: the remainder is in [0, m). -/
theorem modulo_bounds {m : Int} (positive : 0 < m) (a : Int) : 0 ≤ modulo a m ∧ modulo a m < m := by
  rw [modulo_eq_emod positive]
  exact ⟨Int.emod_nonneg _ positive.ne', Int.emod_lt_of_pos _ positive⟩

theorem modulo_modEq {m : Int} (positive : 0 < m) (a : Int) : modulo a m ≡ a [ZMOD m] := by
  rw [modulo_eq_emod positive]
  exact Int.mod_modEq a m

theorem modulo_congr {a b m : Int} (positive : 0 < m) (h : a ≡ b [ZMOD m]) : modulo a m = modulo b m := by
  rw [modulo_eq_emod positive, modulo_eq_emod positive, h]

/-- R150: the remainder is the one number in [0, m) congruent to a. -/
theorem modulo_eq_iff {a m r : Int} (positive : 0 < m) : modulo a m = r ↔ 0 ≤ r ∧ r < m ∧ a ≡ r [ZMOD m] := by
  constructor
  · rintro rfl
    obtain ⟨lower, upper⟩ := modulo_bounds positive a
    exact ⟨lower, upper, (modulo_modEq positive a).symm⟩
  · rintro ⟨lower, upper, congruent⟩
    rw [modulo_eq_emod positive, congruent, Int.emod_eq_of_lt lower upper]

/-- Settles O48: every clause names a reduced number congruent to a, and congruences add and multiply. -/
theorem moduloIsTheEuclideanRemainder : Obligations.ModuloIsTheEuclideanRemainder := by
  intro a m positive
  have reduced : ∀ x, modulo x m ≡ x [ZMOD m] := modulo_modEq positive
  obtain ⟨lower, upper⟩ := modulo_bounds positive a
  refine ⟨lower, upper, (reduced a).dvd, fun r lower upper divides => ?_, fun _ => ?_, fun divides => ?_,
    fun _ notMultiple => ?_, fun b => ⟨?_, ?_, ?_⟩⟩
  · exact ((modulo_eq_iff positive).2 ⟨lower, upper, (Int.modEq_iff_dvd.2 divides).symm⟩).symm
  · rw [modulo_eq_emod positive, Int.emod_def]
  · rw [modulo_eq_emod positive, Int.emod_eq_zero_of_dvd divides]
  · have negated := Int.emod_pos_of_not_dvd (mt dvd_neg.1 notMultiple)
    have below := Int.emod_lt_of_pos (-a) positive
    refine (modulo_eq_iff positive).2 ⟨by omega, by omega, ?_⟩
    calc a = - -a := (neg_neg a).symm
      _ ≡ -((-a) % m) [ZMOD m] := (Int.mod_modEq (-a) m).symm.neg
      _ ≡ m - (-a) % m [ZMOD m] := by
        rw [sub_eq_add_neg]; exact (Int.add_modEq_left).symm
  · exact modulo_congr positive ((reduced a).add (reduced b)).symm
  · exact modulo_congr positive ((reduced a).sub (reduced b)).symm
  · exact modulo_congr positive ((reduced a).mul (reduced b)).symm

/-! ### The modular inverse -/

/-- R151: `invert` fails on the moduli below 2 and on what has a factor in common with the modulus. -/
theorem invert_eq_none_iff_not_unit {a m : Int} : invert a m = none ↔ m ≤ 1 ∨ Int.gcd a m ≠ 1 := by
  rw [invert_eq_none_iff]
  constructor
  · rintro (nonpos | zero | common)
    · exact .inl (by omega)
    · by_contra unit
      obtain ⟨above, coprime⟩ : 1 < m ∧ Int.gcd a m = 1 := by simpa only [not_or, not_le, not_not] using unit
      rw [modulo_eq_emod (by omega)] at zero
      have whole := (Int.gcd_eq_right_iff_dvd (by omega)).2 (Int.dvd_of_emod_eq_zero zero)
      omega
    · exact .inr common
  · rintro (small | common)
    · obtain nonpos | rfl : m ≤ 0 ∨ m = 1 := by omega
      · exact .inl nonpos
      · exact .inr (.inl (by rw [modulo_eq_emod one_pos, Int.emod_one]))
    · exact .inr (.inr common)

/-- R151: for a unit, `invert` gives an inverse modulo m. -/
theorem exists_invert_of_gcd {a m : Int} (above : 1 < m) (coprime : Int.gcd a m = 1) :
    ∃ r, invert a m = some r ∧ 0 ≤ r ∧ r < m ∧ a * r ≡ 1 [ZMOD m] := by
  have success : invert a m ≠ none := by
    rw [ne_eq, invert_eq_none_iff_not_unit, not_or, not_le, not_not]
    exact ⟨above, coprime⟩
  obtain ⟨r, inverse⟩ := Option.ne_none_iff_exists'.1 success
  obtain ⟨lower, upper, unit⟩ := invert_eq_some_spec inverse
  exact ⟨r, inverse, lower, upper, (Int.modEq_iff_dvd.2 unit).symm⟩

/-- R151: `invert` gives r exactly when r is the inverse in [1, m - 1]. -/
theorem invert_eq_some_iff {a m r : Int} : invert a m = some r ↔ 1 ≤ r ∧ r ≤ m - 1 ∧ modulo (a * r) m = 1 := by
  constructor
  · intro inverse
    obtain ⟨above, -⟩ : 1 < m ∧ Int.gcd a m = 1 := by
      simpa only [not_or, not_le, not_not] using
        mt invert_eq_none_iff_not_unit.2 (inverse ▸ Option.some_ne_none r)
    obtain ⟨lower, upper, unit⟩ := invert_eq_some_spec inverse
    have nonzero : r ≠ 0 := by
      rintro rfl
      rw [mul_zero, zero_sub, dvd_neg] at unit
      exact absurd (Int.le_of_dvd one_pos unit) (by omega)
    exact ⟨by omega, by omega,
      (modulo_eq_iff (by omega)).2 ⟨by omega, above, (Int.modEq_iff_dvd.2 unit).symm⟩⟩
  · rintro ⟨lower, upper, product⟩
    obtain ⟨-, above, unit⟩ := (modulo_eq_iff (by omega)).1 product
    have coprime : Int.gcd a m = 1 := by
      obtain ⟨k, multiple⟩ := unit.dvd
      exact Int.isCoprime_iff_gcd_eq_one.1 ⟨r, k, by linarith⟩
    obtain ⟨r', inverse, lower', upper', unit'⟩ := exists_invert_of_gcd above coprime
    have same : r' ≡ r [ZMOD m] :=
      calc r' = r' * 1 := (mul_one r').symm
        _ ≡ r' * (a * r) [ZMOD m] := unit.symm.mul_left r'
        _ = a * r' * r := by ring
        _ ≡ 1 * r [ZMOD m] := unit'.mul_right r
        _ = r := one_mul r
    rw [inverse, ← Int.emod_eq_of_lt lower' upper', same, Int.emod_eq_of_lt (by omega) (by omega)]

/-- Settles O49: the failures of the Euclid loop, and the one inverse it gives otherwise. -/
theorem invertIsTheModularInverse : Obligations.InvertIsTheModularInverse := by
  refine fun a m => ⟨invert_eq_none_iff, fun r inverse => ?_⟩
  obtain ⟨lower, upper, product⟩ := invert_eq_some_iff.1 inverse
  refine ⟨lower, upper, product, fun r' lower' upper' product' => ?_⟩
  exact Option.some_inj.1 ((invert_eq_some_iff.2 ⟨lower', upper', product'⟩).symm.trans inverse)

/-- A register value is invertible modulo a prime above 2^255 unless it is 0 or that prime: it is below twice the prime. -/
theorem invert_register_eq_none_iff {c : Word256} (prime : c.toNat.Prime) (large : 2 ^ 256 < 2 * c.toNat) (v : Word256) :
    invert v.toNat c.toNat = none ↔ v = 0 ∨ v = c := by
  have bound := v.isLt
  have divides : Int.gcd v.toNat c.toNat ≠ 1 ↔ c.toNat ∣ v.toNat := by
    rw [Int.gcd_natCast_natCast, Nat.gcd_comm, ne_eq, ← Nat.coprime_iff_gcd_eq_one, prime.coprime_iff_not_dvd, not_not]
  rw [invert_eq_none_iff_not_unit, or_iff_right (by omega), divides]
  constructor
  · rintro ⟨k, multiple⟩
    have few : k < 2 := Nat.lt_of_mul_lt_mul_left (a := c.toNat) (by omega)
    obtain rfl | rfl : k = 0 ∨ k = 1 := by omega
    · exact .inl (BitVec.eq_of_toNat_eq multiple)
    · exact .inr (BitVec.eq_of_toNat_eq (by omega))
  · rintro (rfl | rfl)
    · exact dvd_zero _
    · exact dvd_rfl

/-! ### The two products -/

theorem mulmod_of_pos {m : Int} (positive : 0 < m) (a b : Int) : mulmod a b m = some (modulo (a * b) m) :=
  if_neg positive.ne'

theorem mulmod_eq_none_iff {a b m : Int} : mulmod a b m = none ↔ m = 0 := by simp [mulmod]

theorem moduloChecked_of_pos {m : Int} (positive : 0 < m) (a : Int) : moduloChecked a m = some (modulo a m) :=
  if_neg positive.ne'

theorem moduloChecked_eq_none_iff {a m : Int} : moduloChecked a m = none ↔ m = 0 := by simp [moduloChecked]

/-- R157: "gcd(2^256, m) ≠ 1 exactly when m is even". -/
theorem gcd_montgomeryRadix_eq_one_iff (m : Int) : Int.gcd montgomeryRadix m = 1 ↔ m % 2 = 1 := by
  rw [← Int.isCoprime_iff_gcd_eq_one, montgomeryRadix, IsCoprime.pow_left_iff (by norm_num), ← Int.odd_iff,
    Int.isCoprime_iff_gcd_eq_one, Int.gcd, ← Nat.coprime_iff_gcd_eq_one]
  exact Nat.coprime_two_left.trans Int.natAbs_odd

/-- R157: exactly when MONTMUL raises ArithFail. -/
theorem montmul_eq_none_iff {a b m : Int} : montmul a b m = none ↔ m ≤ 1 ∨ m % 2 = 0 := by
  rw [montmul, Option.map_eq_none_iff, invert_eq_none_iff_not_unit, ne_eq, gcd_montgomeryRadix_eq_one_iff,
    Int.emod_two_ne_one]

/-- R157: for an odd modulus, MONTMUL gives the one reduced v with v·2^256 ≡ a·b. -/
theorem montmul_eq_some_iff {a b m v : Int} (above : 1 < m) (odd : m % 2 = 1) :
    montmul a b m = some v ↔ 0 ≤ v ∧ v < m ∧ v * montgomeryRadix ≡ a * b [ZMOD m] := by
  obtain ⟨rinv, inverse, -, -, unit⟩ := exists_invert_of_gcd above ((gcd_montgomeryRadix_eq_one_iff m).2 odd)
  rw [montmul, inverse, Option.map_some, Option.some_inj, modulo_eq_iff (by omega)]
  refine and_congr_right fun _ => and_congr_right fun _ => ⟨fun h => ?_, fun h => ?_⟩
  · calc v * montgomeryRadix ≡ a * b * rinv * montgomeryRadix [ZMOD m] := h.symm.mul_right _
      _ = a * b * (montgomeryRadix * rinv) := by ring
      _ ≡ a * b * 1 [ZMOD m] := unit.mul_left _
      _ = a * b := mul_one _
  · calc a * b * rinv ≡ v * montgomeryRadix * rinv [ZMOD m] := h.symm.mul_right _
      _ = v * (montgomeryRadix * rinv) := by ring
      _ ≡ v * 1 [ZMOD m] := unit.mul_left _
      _ = v := mul_one v

/-- R157: MONTMUL is a reduced w, where w·2^256 ≡ a·b. -/
theorem montmul_eq_modulo {a b m w : Int} (above : 1 < m) (odd : m % 2 = 1) (h : w * montgomeryRadix ≡ a * b [ZMOD m]) :
    montmul a b m = some (modulo w m) := by
  have positive : 0 < m := by omega
  obtain ⟨lower, upper⟩ := modulo_bounds positive w
  exact (montmul_eq_some_iff above odd).2 ⟨lower, upper, ((modulo_modEq positive w).mul_right _).trans h⟩

/-- R157: the Montgomery form of x. -/
def montgomeryForm (m x : Int) : Int := modulo (x * montgomeryRadix) m

theorem montgomeryForm_modEq {m : Int} (positive : 0 < m) (x : Int) : montgomeryForm m x ≡ x * montgomeryRadix [ZMOD m] :=
  modulo_modEq positive _

/-- R157, first law: MONTMUL multiplies Montgomery forms. -/
theorem montmul_montgomeryForm {m : Int} (above : 1 < m) (odd : m % 2 = 1) (x y : Int) :
    montmul (montgomeryForm m x) (montgomeryForm m y) m = some (montgomeryForm m (x * y)) := by
  refine montmul_eq_modulo above odd ?_
  calc x * y * montgomeryRadix * montgomeryRadix = x * montgomeryRadix * (y * montgomeryRadix) := by ring
    _ ≡ montgomeryForm m x * montgomeryForm m y [ZMOD m] :=
      ((montgomeryForm_modEq (by omega) x).mul (montgomeryForm_modEq (by omega) y)).symm

/-- R157, second law: conversion in. -/
theorem montmul_radix_squared {m : Int} (above : 1 < m) (odd : m % 2 = 1) (x : Int) :
    montmul x (modulo (2 ^ 512) m) m = some (montgomeryForm m x) := by
  refine montmul_eq_modulo above odd ?_
  calc x * montgomeryRadix * montgomeryRadix = x * 2 ^ 512 := by rw [mul_assoc, montgomeryRadix, ← pow_add]
    _ ≡ x * modulo (2 ^ 512) m [ZMOD m] := (modulo_modEq (by omega) _).symm.mul_left x

/-- R157, third law: conversion out. -/
theorem montmul_montgomeryForm_one {m : Int} (above : 1 < m) (odd : m % 2 = 1) (x : Int) :
    montmul (montgomeryForm m x) 1 m = some (modulo x m) := by
  refine montmul_eq_modulo above odd ?_
  rw [mul_one]
  exact (montgomeryForm_modEq (by omega) x).symm

/-- R157, fourth law: MONTMUL is MULMOD twice, for every modulus. -/
theorem montmul_eq_mulmod_mulmod (a b m : Int) :
    montmul a b m = (invert montgomeryRadix m).bind fun rinv => (mulmod a b m).bind fun c => mulmod c rinv m := by
  rw [montmul]
  cases inverse : invert montgomeryRadix m with
  | none => rfl
  | some rinv =>
    obtain ⟨lower, upper, -⟩ := invert_eq_some_iff.1 inverse
    have positive : 0 < m := by omega
    rw [Option.map_some, Option.bind_some, mulmod_of_pos positive, Option.bind_some, mulmod_of_pos positive]
    exact congrArg some (modulo_congr positive ((modulo_modEq positive (a * b)).mul_right rinv).symm)

/-- Settles O56: the four laws, at an odd modulus above 1 and at every modulus. -/
theorem montgomeryFormLaws : Obligations.MontgomeryFormLaws := by
  refine ⟨fun m three odd x y => ?_, montmul_eq_mulmod_mulmod⟩
  have above : 1 < m := by omega
  exact ⟨montmul_montgomeryForm above odd x y, montmul_radix_squared above odd x, montmul_montgomeryForm_one above odd x⟩

/-! ### The reduction without a division -/

theorem montgomeryRadix_pos : 0 < montgomeryRadix := by rw [montgomeryRadix]; positivity

/-- R158: "the division is exact". -/
theorem montgomeryRadix_dvd_of_modEq {m minv t u : Int} (inverse : m * minv ≡ 1 [ZMOD montgomeryRadix])
    (factor : u ≡ t * -minv [ZMOD montgomeryRadix]) : montgomeryRadix ∣ t + u * m := by
  rw [← Int.modEq_zero_iff_dvd]
  calc t + u * m ≡ t + t * -minv * m [ZMOD montgomeryRadix] := (factor.mul_right m).add_left t
    _ = t - t * (m * minv) := by ring
    _ ≡ t - t * 1 [ZMOD montgomeryRadix] := (inverse.mul_left t).sub_left t
    _ = 0 := by ring

/-- R158: the quotient is below 2·m, so one subtraction reduces it. -/
theorem montmul_of_quotient {m a b u v : Int} (above : 1 < m) (odd : m % 2 = 1)
    (product : 0 ≤ a * b ∧ a * b < m * montgomeryRadix) (factor : 0 ≤ u ∧ u < montgomeryRadix)
    (quotient : v * montgomeryRadix = a * b + u * m) : montmul a b m = some (if m ≤ v then v - m else v) := by
  have positive := montgomeryRadix_pos
  have lower : 0 ≤ v := by
    refine nonneg_of_mul_nonneg_left (b := montgomeryRadix) ?_ positive
    rw [quotient]
    exact add_nonneg product.1 (mul_nonneg factor.1 (by omega))
  have upper : v < 2 * m := by
    refine lt_of_mul_lt_mul_right (a := montgomeryRadix) ?_ positive.le
    have := mul_lt_mul_of_pos_right factor.2 (show 0 < m by omega)
    linarith [product.2]
  have congruent : v * montgomeryRadix ≡ a * b [ZMOD m] := by
    rw [quotient]
    exact Int.add_mul_modulus_modEq_iff.2 .rfl
  refine (montmul_eq_some_iff above odd).2 ?_
  split
  · exact ⟨by omega, by omega, ((Int.sub_modulus_modEq_iff.2 .rfl).mul_right _).trans congruent⟩
  · exact ⟨lower, by omega, congruent⟩

/-- Settles O57: the quotient of R158 solves the congruence of R157. -/
theorem montgomeryReductionAgrees : Obligations.MontgomeryReductionAgrees := by
  intro m a b three fits odd lowerA upperA lowerB upperB
  have coprime : Int.gcd m montgomeryRadix = 1 := by rwa [Int.gcd_comm, gcd_montgomeryRadix_eq_one_iff]
  obtain ⟨minv, inverse, -, -, unit⟩ := exists_invert_of_gcd (show 1 < montgomeryRadix from lt_trans (by omega) fits) coprime
  rw [montgomeryReduce, inverse, Option.map_some]
  extract_lets m' t u v
  have reduced : ∀ x, modulo x montgomeryRadix ≡ x [ZMOD montgomeryRadix] := modulo_modEq montgomeryRadix_pos
  have factor : u ≡ t * -minv [ZMOD montgomeryRadix] := (reduced _).trans ((reduced t).mul (reduced (-minv)))
  have small : a * b < m * montgomeryRadix :=
    (mul_le_mul_of_nonneg_left upperB.le lowerA).trans_lt
      ((mul_lt_mul_of_pos_right upperA (by omega)).trans (mul_lt_mul_of_pos_left fits (by omega)))
  exact (montmul_of_quotient (by omega) odd ⟨mul_nonneg lowerA lowerB, small⟩ (modulo_bounds montgomeryRadix_pos _)
    (Int.ediv_mul_cancel (montgomeryRadix_dvd_of_modEq unit factor))).symm

/-! ### The field commands -/

/-- R93: the INVERT command of each modulus select. -/
def invertCommand : ModulusSelect → Instr
  | .p => .invertP
  | .n => .invertN
  | .m => .invertM

/-- R93: the MODULO command of each modulus select. -/
def moduloCommand : ModulusSelect → Instr
  | .p => .moduloP
  | .n => .moduloN
  | .m => .moduloM

/-- R93: the MULMOD command of each modulus select. -/
def mulmodCommand : ModulusSelect → Instr
  | .p => .mulmodP
  | .n => .mulmodN
  | .m => .mulmodM

/-- R93: the MONTMUL command of each modulus select. -/
def montmulCommand : ModulusSelect → Instr
  | .p => .montmulP
  | .n => .montmulN
  | .m => .montmulM

theorem exec_invertCommand (sel : ModulusSelect) (s : State) :
    exec (invertCommand sel) s = finish (scalarResult (invert s.engine.a.toNat (modulus sel s.engine))) s := by
  cases sel <;> rfl

theorem exec_moduloCommand (sel : ModulusSelect) (s : State) :
    exec (moduloCommand sel) s = finish (scalarResult (moduloChecked s.engine.a.toNat (modulus sel s.engine))) s := by
  cases sel <;> rfl

theorem exec_mulmodCommand (sel : ModulusSelect) (s : State) :
    exec (mulmodCommand sel) s =
      finish (scalarResult (mulmod s.engine.a.toNat s.engine.b.toNat (modulus sel s.engine))) s := by
  cases sel <;> rfl

theorem exec_montmulCommand (sel : ModulusSelect) (s : State) :
    exec (montmulCommand sel) s =
      finish (scalarResult (montmul s.engine.a.toNat s.engine.b.toNat (modulus sel s.engine))) s := by
  cases sel <;> rfl

/-- R95: the three commands of an operation, each with its modulus, are one command of the modulus select. -/
theorem exists_select {command : ModulusSelect → Instr} {i : Instr} {m : Int} {e : Engine}
    (h : (i, m) ∈ ([(command .p, primeP), (command .n, orderN), (command .m, (e.m.toNat : Int))] : List (Instr × Int))) :
    ∃ sel, i = command sel ∧ m = modulus sel e := by
  simp only [List.mem_cons, List.not_mem_nil, or_false, Prod.mk.injEq] at h
  obtain h | h | h := h
  · exact ⟨.p, h⟩
  · exact ⟨.n, h⟩
  · exact ⟨.m, h⟩

/-- R95: a modulus is an unsigned register value. -/
theorem modulus_bounds (sel : ModulusSelect) (e : Engine) : 0 ≤ modulus sel e ∧ modulus sel e < 2 ^ 256 := by
  have register : ∀ v : Word256, 0 ≤ (v.toNat : Int) ∧ (v.toNat : Int) < 2 ^ 256 := fun v => ⟨by omega, mod_cast v.isLt⟩
  cases sel <;> exact register _

/-- R153: "with MSEL = 0 or 1 the modulus is an odd prime", so it is odd and above 1. -/
theorem modulus_of_constant {sel : ModulusSelect} (constant : sel ≠ .m) (e : Engine) :
    1 < modulus sel e ∧ modulus sel e % 2 = 1 := by
  cases sel with
  | m => exact absurd rfl constant
  | p => exact (by decide +kernel : 1 < primeP ∧ primeP % 2 = 1)
  | n => exact (by decide +kernel : 1 < orderN ∧ orderN % 2 = 1)

theorem modulus_congr {e e' : Engine} (h : e'.m = e.m) (sel : ModulusSelect) : modulus sel e' = modulus sel e := by
  cases sel with
  | m => rw [modulus, h, modulus]
  | p => rfl
  | n => rfl

/-- R43: a field command whose evaluation gives a number below a modulus commits it. -/
theorem finish_commits_scalar {v : Int} (s : State) {sel : ModulusSelect} (lower : 0 ≤ v) (below : v < modulus sel s.engine) :
    ∃ t, finish (scalarResult (some v)) s = .next t ∧ committedScalar v s t := by
  obtain ⟨inputs, done, idle, -⟩ := complete_spec (.sc v) s.engine
  refine ⟨_, rfl, ?_, ⟨rfl, done, idle⟩, inputs, complete_scalarResult_samePoint (some v) s.engine, rfl, rfl⟩
  exact toNat_ofInt_of_fits ⟨lower, below.trans (modulus_bounds sel s.engine).2⟩

/-- R155, R156: a field command whose evaluation gives a remainder commits it. -/
theorem finish_commits_modulo (x : Int) (s : State) {sel : ModulusSelect} (positive : 0 < modulus sel s.engine) :
    ∃ t, finish (scalarResult (some (modulo x (modulus sel s.engine)))) s = .next t ∧
      committedScalar (x % modulus sel s.engine) s t := by
  obtain ⟨lower, upper⟩ := modulo_bounds positive x
  rw [← modulo_eq_emod positive]
  exact finish_commits_scalar s lower upper

/-- R187: a field command fails where its evaluation gives no number. -/
theorem finish_scalar_fails {r : Option Int} (noValue : r = none) (s : State) :
    ∃ t, finish (scalarResult r) s = .next t ∧ endedInError .arithFail s t := by
  rw [noValue]
  exact ⟨_, rfl, endedInError_complete .arithFail s⟩

/-- R187: a field command that ends without an error had a number to commit. -/
theorem exists_of_finish_scalar {r : Option Int} {s t : State} (next : finish (scalarResult r) s = .next t)
    (noError : t.engine.err = .none) : ∃ v, r = some v := by
  rw [← Option.ne_none_iff_exists']
  intro noValue
  obtain ⟨t', next', ⟨failed, -⟩, -⟩ := finish_scalar_fails noValue s
  obtain rfl : t' = t := by rwa [next', Host.Outcome.next.injEq] at next
  rw [failed] at noError
  cases noError

/-- R183: a field command ends with ARITH_FAIL exactly where its evaluation gives no number. -/
theorem failsArith_iff_eq_none {i : Instr} {s : State} {r : Option Int} (meaning : exec i s = finish (scalarResult r) s) :
    failsArith i s ↔ r = none := by
  rw [failsArith, meaning]
  cases r with
  | none => simp
  | some v => simp

/-- Settles O50: the inverse, which is below the modulus, and the failures of `invert`. -/
theorem invertCommands : Obligations.InvertCommands := by
  intro s i m member
  obtain ⟨sel, rfl, rfl⟩ := exists_select (command := invertCommand) member
  rw [exec_invertCommand]
  refine ⟨fun above coprime => ?_, fun failing => finish_scalar_fails (invert_eq_none_iff_not_unit.2 ?_) s⟩
  · obtain ⟨v, inverse, -⟩ := exists_invert_of_gcd above coprime
    obtain ⟨lower, upper, product⟩ := invert_eq_some_iff.1 inverse
    rw [modulo_eq_emod (by omega)] at product
    obtain ⟨t, next, committed⟩ := finish_commits_scalar s (show 0 ≤ v by omega) (show v < modulus sel s.engine by omega)
    exact ⟨t, v, inverse ▸ next, committed, lower, upper, product⟩
  · exact or_assoc.2 failing |>.imp_left fun small => by omega

/-- Settles O51: the remainder by a modulus that is not 0. -/
theorem moduloCommands : Obligations.ModuloCommands := by
  intro s i m member
  obtain ⟨sel, rfl, rfl⟩ := exists_select (command := moduloCommand) member
  rw [exec_moduloCommand]
  refine ⟨fun nonzero => ?_, fun zero => finish_scalar_fails (moduloChecked_eq_none_iff.2 zero) s⟩
  have positive : 0 < modulus sel s.engine := (modulus_bounds sel s.engine).1.lt_of_ne' nonzero
  rw [moduloChecked_of_pos positive]
  exact finish_commits_modulo _ s positive

/-- Settles O52: the remainder of the exact product. -/
theorem mulmodCommands : Obligations.MulmodCommands := by
  intro s i m member
  obtain ⟨sel, rfl, rfl⟩ := exists_select (command := mulmodCommand) member
  rw [exec_mulmodCommand]
  refine ⟨fun nonzero => ?_, fun zero => finish_scalar_fails (mulmod_eq_none_iff.2 zero) s⟩
  have positive : 0 < modulus sel s.engine := (modulus_bounds sel s.engine).1.lt_of_ne' nonzero
  rw [mulmod_of_pos positive]
  exact finish_commits_modulo _ s positive

/-- Settles O53: the reduced solution of the congruence of R157, and the failures of MONTMUL. -/
theorem montmulCommands : Obligations.MontmulCommands := by
  intro s i m member
  obtain ⟨sel, rfl, rfl⟩ := exists_select (command := montmulCommand) member
  rw [exec_montmulCommand]
  refine ⟨fun above odd => ?_, fun failing => finish_scalar_fails (montmul_eq_none_iff.2 failing) s⟩
  obtain ⟨v, product⟩ : ∃ v, montmul s.engine.a.toNat s.engine.b.toNat (modulus sel s.engine) = some v := by
    rw [← Option.ne_none_iff_exists', ne_eq, montmul_eq_none_iff]
    omega
  obtain ⟨lower, upper, congruent⟩ := (montmul_eq_some_iff above odd).1 product
  obtain ⟨t, next, committed⟩ := finish_commits_scalar s lower upper
  exact ⟨t, v, product ▸ next, committed, lower, upper, Int.emod_eq_emod_iff_emod_sub_eq_zero.1 congruent⟩

/-- R183: the failures of each field command, by its modulus select. -/
theorem failsArith_invertCommand_iff (sel : ModulusSelect) (s : State) :
    failsArith (invertCommand sel) s ↔ invert s.engine.a.toNat (modulus sel s.engine) = none :=
  failsArith_iff_eq_none (exec_invertCommand sel s)

theorem failsArith_moduloCommand_iff (sel : ModulusSelect) (s : State) :
    failsArith (moduloCommand sel) s ↔ modulus sel s.engine = 0 :=
  (failsArith_iff_eq_none (exec_moduloCommand sel s)).trans moduloChecked_eq_none_iff

theorem failsArith_mulmodCommand_iff (sel : ModulusSelect) (s : State) :
    failsArith (mulmodCommand sel) s ↔ modulus sel s.engine = 0 :=
  (failsArith_iff_eq_none (exec_mulmodCommand sel s)).trans mulmod_eq_none_iff

theorem failsArith_montmulCommand_iff (sel : ModulusSelect) (s : State) :
    failsArith (montmulCommand sel) s ↔ modulus sel s.engine ≤ 1 ∨ modulus sel s.engine % 2 = 0 :=
  (failsArith_iff_eq_none (exec_montmulCommand sel s)).trans montmul_eq_none_iff

/-- Settles O54: the conditions of R160 are those of the pure functions, with a modulus that is not negative. -/
theorem fieldFailureSummary : Obligations.FieldFailureSummary := by
  intro s
  refine ⟨fun i m member => ?_, fun i m member => ?_, fun i m member => ?_, ?_, ?_, fun i member => ?_⟩
  · obtain ⟨sel, rfl, rfl⟩ := exists_select (command := invertCommand) member
    have nonneg := (modulus_bounds sel s.engine).1
    rw [failsArith_invertCommand_iff, invert_eq_none_iff, nonneg.ge_iff_eq']
  · obtain member | member := (List.mem_append (s := [_, _, _])).1 member
    · obtain ⟨sel, rfl, rfl⟩ := exists_select (command := moduloCommand) member
      exact failsArith_moduloCommand_iff sel s
    · obtain ⟨sel, rfl, rfl⟩ := exists_select (command := mulmodCommand) member
      exact failsArith_mulmodCommand_iff sel s
  · obtain ⟨sel, rfl, rfl⟩ := exists_select (command := montmulCommand) member
    have nonneg := (modulus_bounds sel s.engine).1
    rw [failsArith_montmulCommand_iff]
    omega
  · exact (failsArith_invertCommand_iff .p s).trans (invert_register_eq_none_iff Laws.curveP_prime (by decide +kernel) _)
  · exact (failsArith_invertCommand_iff .n s).trans (invert_register_eq_none_iff Laws.curveN_prime (by decide +kernel) _)
  · have unitP := modulus_of_constant (sel := .p) nofun s.engine
    have unitN := modulus_of_constant (sel := .n) nofun s.engine
    simp only [List.mem_cons, List.not_mem_nil, or_false] at member
    obtain rfl | rfl | rfl | rfl | rfl | rfl := member
    · exact (failsArith_moduloCommand_iff .p s).not.2 (by omega)
    · exact (failsArith_moduloCommand_iff .n s).not.2 (by omega)
    · exact (failsArith_mulmodCommand_iff .p s).not.2 (by omega)
    · exact (failsArith_mulmodCommand_iff .n s).not.2 (by omega)
    · exact (failsArith_montmulCommand_iff .p s).not.2 (by omega)
    · exact (failsArith_montmulCommand_iff .n s).not.2 (by omega)

/-- Settles O55: a command without an error had an inverse to commit, and it is the B that MULMOD reads. -/
theorem inverseTimesOperandIsOne : Obligations.InverseTimesOperandIsOne := by
  intro s t i j member next noError
  obtain ⟨sel, rfl, rfl⟩ : ∃ sel, i = invertCommand sel ∧ j = mulmodCommand sel := by
    simp only [List.mem_cons, List.not_mem_nil, or_false, Prod.mk.injEq] at member
    obtain h | h | h := member
    · exact ⟨.p, h⟩
    · exact ⟨.n, h⟩
    · exact ⟨.m, h⟩
  rw [exec_invertCommand] at next
  obtain ⟨r, inverse⟩ := exists_of_finish_scalar next noError
  obtain ⟨lower, upper, product⟩ := invert_eq_some_iff.1 inverse
  obtain ⟨t', next', result, -, ⟨-, -, -, -, -, -, -, -, -, sameA, -, sameM⟩, -, -⟩ :=
    finish_commits_scalar s (show 0 ≤ r by omega) (show r < modulus sel s.engine by omega)
  obtain rfl : t' = t := by rwa [inverse, next', Host.Outcome.next.injEq] at next
  have sameModulus : modulus sel { t'.engine with b := t'.engine.s } = modulus sel s.engine := modulus_congr sameM sel
  have one : mulmod t'.engine.a.toNat t'.engine.s.toNat (modulus sel { t'.engine with b := t'.engine.s }) = some 1 := by
    rw [sameModulus, sameA, result, mulmod_of_pos (by omega), product]
  exact ⟨_, (exec_mulmodCommand sel _).trans (congrArg (fun r => finish (scalarResult r) _) one), rfl, rfl⟩

end Sys2Proof.Proofs
end

section
/-! PROOFS. The family 60_exceptions: the two error codes (spec/60_exceptions.md). First which outcomes are errors, and whose: a
command's own error is ARITH_FAIL, and ILLEGAL_CMD is the outcome of a word that decodes to no command. Then the statements. -/

namespace Sys2Proof.Proofs

open Sys2Proof.Machine

/-! ### Outcomes that are errors -/

/-- R43, R187: the completion step writes an error code exactly for the outcome that is this error. -/
theorem complete_err_eq_iff {code : ErrCode} (error : code ≠ .none) (r : Result) (e : Engine) :
    (complete r e).err = code ↔ r = .err code := by
  cases r with
  | pt v => simp [error.symm]
  | sc v => simp [error.symm]
  | err own => simp

/-- R181: the only error that the evaluation of a command can meet is ARITH_FAIL. -/
theorem eq_arithFail_of_outcome_err {i : Instr} {e : Engine} {code : ErrCode} (h : outcome i e = .err code) :
    code = .arithFail := by
  by_cases point : i ∈ ([.identity, .add, .double, .mulscalar, .mulgen] : List Instr)
  · obtain ⟨_ | v, value⟩ := outcome_of_pointCommand point e
    · exact Result.err.inj (h.symm.trans value)
    · cases h.symm.trans value
  · obtain ⟨_ | v, value⟩ := outcome_of_fieldCommand point e
    · exact Result.err.inj (h.symm.trans value)
    · cases h.symm.trans value

/-- R99: a command word decodes to some command exactly when it is the word of one of the 17. -/
theorem exists_decode_eq_ok_iff (c : Word) : (∃ i, decode c = .ok i) ↔ c ∈ commands.map encode := by
  simp only [decodeInvertsEncode c, List.mem_map, mem_commands, true_and, eq_comm]

/-- R184: the outcome of the word in flight is ILLEGAL_CMD exactly when the word is none of the 17. -/
theorem outcomeInFlight_eq_illegalCmd_iff (e : Engine) :
    outcomeInFlight e = .err .illegalCmd ↔ e.cmd ∉ commands.map encode := by
  rw [← exists_decode_eq_ok_iff, outcomeInFlight]
  cases decode e.cmd with
  | ok i =>
    have notIllegal : outcome i e ≠ .err .illegalCmd := fun h => nomatch eq_arithFail_of_outcome_err h
    simp [notIllegal]
  | error why => simp

/-! ### The statements -/

/-- Settles O6: the engine's turn is the completion step for the outcome of the word in flight, and completes the error
ILLEGAL_CMD only when that is the outcome. -/
theorem illegalWordCompletes : Obligations.IllegalWordCompletes := by
  intro s turn busy
  have next : step s = finish (outcomeInFlight s.engine) (takeTurn s) :=
    (step_of_engineTurn turn).trans (engineTurn_of_busy (s := takeTurn s) busy)
  have raised := complete_err_eq_iff (code := .illegalCmd) nofun (outcomeInFlight s.engine) s.engine
  refine ⟨_, next, raised.trans (outcomeInFlight_eq_illegalCmd_iff s.engine), fun error => ?_⟩
  rw [raised.1 error]
  exact endedInError_complete .illegalCmd (takeTurn s)

/-- Settles O59: the outcome of a command that ends with an error is ARITH_FAIL, whose completion leaves the rest. -/
theorem errorChangesNothingElse : Obligations.ErrorChangesNothingElse := by
  intro i s t next error
  obtain rfl := exec_eq_next_iff.1 next
  have failed := (complete_err_eq_iff error (outcome i s.engine) s.engine).1 rfl
  rw [eq_arithFail_of_outcome_err failed] at failed
  rw [failed]
  exact endedInError_complete .arithFail s

/-- Settles O7: the turns of the host and of the reset event are total, and the engine waits or completes. -/
theorem everyStepAnswersNext : Obligations.EveryStepAnswersNext := by
  intro s
  cases turn : nextTurn s with
  | host => exact ⟨_, step_of_hostTurn turn⟩
  | reset => exact ⟨resetEngine (takeTurn s), by simp only [step, turn]⟩
  | engine =>
    rw [step_of_engineTurn turn]
    cases phase : (takeTurn s).engine.phase with
    | idle => exact ⟨_, engineTurn_of_idle phase⟩
    | busy => exact ⟨_, engineTurn_of_busy phase⟩

end Sys2Proof.Proofs
end

section
/-! PROOFS. The family 70_reset_and_hazards: the reset event's turn (spec/70_reset_and_hazards.md R210, R211). -/

namespace Sys2Proof.Proofs

open Sys2Proof.Machine

theorem step_of_resetTurn {s : State} (h : nextTurn s = .reset) : step s = .next (resetEngine (takeTurn s)) := by
  simp only [step, h]

/-- Settles O10: whatever was in flight, the reset turn's engine is the one after reset, whose entries and `irq` O9 gives. -/
theorem resetEventFromEveryState : Obligations.ResetEventFromEveryState := by
  intro s turn
  obtain ⟨table, -, -, -, -, noIrq, -⟩ := resetStateAsSpecified
  have engine : (resetEngine (takeTurn s)).engine = State.reset.engine := resetEngine_engine _
  exact ⟨_, step_of_resetTurn turn, engine ▸ table, engine ▸ noIrq, resetEngine_host _, resetEngine_schedule _⟩

end Sys2Proof.Proofs
end
